-- ==== Sys2Proof/Word.lean ====
section
/-!
DEFINITION. The bit vectors of the machine (00_scope.md R6, Notation) and the plain-data form of its memories.
-/

namespace Sys2Proof

/-- A byte: the data width of the machine is 8 bits (R6). -/
abbrev Byte := BitVec 8

/-- A CPU address or the program counter: 16 bits (R6, R15). -/
abbrev Word := BitVec 16

/-- The loopy registers v and t, and the PPU addresses they present: 15 bits (R44, R45). -/
abbrev Loopy := BitVec 15

/-- A memory of `w`-bit cells: the cells that do not read as zero, as (address, value) pairs in strictly rising address
order. An unlisted cell reads as zero ("Bus and PPU memory initialize to zero", R22, R440). `Memory 8` is a list of
`Host.Cell`. The operations and the canonical form are in Sys2Proof/Machine/Memory.lean. -/
abbrev Memory (w : Nat) := List (Nat × BitVec w)

end Sys2Proof
end

