-- ==== Sys2Proof/Syntax.lean ====
section
/-!
DEFINITION. The 151 official instructions (R2, R113): one constructor for each row of spec/opcode_table.json, named by its
mnemonic and its addressing mode. An operand is held as the mode assembles it (R111, R112): a byte for an immediate and for a
zero-page address or pointer, the little-endian word for an absolute address or pointer, and the signed displacement for a
branch.
-/

namespace Sys2Proof

inductive Instr where
  -- Load and store (41_load_store.md)
  /-- `A9` `LDA #$nn` (IMM), R170. -/
  | ldaImm (m : Byte)
  /-- `A5` `LDA $nn` (ZP), R170. -/
  | ldaZp (zp : Byte)
  /-- `B5` `LDA $nn,X` (ZPX), R170. -/
  | ldaZpX (zp : Byte)
  /-- `AD` `LDA $hhll` (ABS), R170. -/
  | ldaAbs (addr : Word)
  /-- `BD` `LDA $hhll,X` (ABSX), R170. -/
  | ldaAbsX (addr : Word)
  /-- `B9` `LDA $hhll,Y` (ABSY), R170. -/
  | ldaAbsY (addr : Word)
  /-- `A1` `LDA ($nn,X)` (INDX), R170. -/
  | ldaIndX (zp : Byte)
  /-- `B1` `LDA ($nn),Y` (INDY), R170. -/
  | ldaIndY (zp : Byte)
  /-- `A2` `LDX #$nn` (IMM), R171. -/
  | ldxImm (m : Byte)
  /-- `A6` `LDX $nn` (ZP), R171. -/
  | ldxZp (zp : Byte)
  /-- `B6` `LDX $nn,Y` (ZPY), R171. -/
  | ldxZpY (zp : Byte)
  /-- `AE` `LDX $hhll` (ABS), R171. -/
  | ldxAbs (addr : Word)
  /-- `BE` `LDX $hhll,Y` (ABSY), R171. -/
  | ldxAbsY (addr : Word)
  /-- `A0` `LDY #$nn` (IMM), R172. -/
  | ldyImm (m : Byte)
  /-- `A4` `LDY $nn` (ZP), R172. -/
  | ldyZp (zp : Byte)
  /-- `B4` `LDY $nn,X` (ZPX), R172. -/
  | ldyZpX (zp : Byte)
  /-- `AC` `LDY $hhll` (ABS), R172. -/
  | ldyAbs (addr : Word)
  /-- `BC` `LDY $hhll,X` (ABSX), R172. -/
  | ldyAbsX (addr : Word)
  /-- `85` `STA $nn` (ZP), R173. -/
  | staZp (zp : Byte)
  /-- `95` `STA $nn,X` (ZPX), R173. -/
  | staZpX (zp : Byte)
  /-- `8D` `STA $hhll` (ABS), R173. -/
  | staAbs (addr : Word)
  /-- `9D` `STA $hhll,X` (ABSX), R173. -/
  | staAbsX (addr : Word)
  /-- `99` `STA $hhll,Y` (ABSY), R173. -/
  | staAbsY (addr : Word)
  /-- `81` `STA ($nn,X)` (INDX), R173. -/
  | staIndX (zp : Byte)
  /-- `91` `STA ($nn),Y` (INDY), R173. -/
  | staIndY (zp : Byte)
  /-- `86` `STX $nn` (ZP), R174. -/
  | stxZp (zp : Byte)
  /-- `96` `STX $nn,Y` (ZPY), R174. -/
  | stxZpY (zp : Byte)
  /-- `8E` `STX $hhll` (ABS), R174. -/
  | stxAbs (addr : Word)
  /-- `84` `STY $nn` (ZP), R175. -/
  | styZp (zp : Byte)
  /-- `94` `STY $nn,X` (ZPX), R175. -/
  | styZpX (zp : Byte)
  /-- `8C` `STY $hhll` (ABS), R175. -/
  | styAbs (addr : Word)
  -- Register transfer (42_transfer.md)
  /-- `AA` `TAX` (IMP), R180. -/
  | tax
  /-- `A8` `TAY` (IMP), R181. -/
  | tay
  /-- `BA` `TSX` (IMP), R182. -/
  | tsx
  /-- `8A` `TXA` (IMP), R183. -/
  | txa
  /-- `9A` `TXS` (IMP), R184. -/
  | txs
  /-- `98` `TYA` (IMP), R185. -/
  | tya
  -- Stack (43_stack.md)
  /-- `48` `PHA` (IMP), R190. -/
  | pha
  /-- `08` `PHP` (IMP), R191. -/
  | php
  /-- `68` `PLA` (IMP), R192. -/
  | pla
  /-- `28` `PLP` (IMP), R193. -/
  | plp
  -- Arithmetic and logic (44_arith_logic.md)
  /-- `69` `ADC #$nn` (IMM), R200. -/
  | adcImm (m : Byte)
  /-- `65` `ADC $nn` (ZP), R200. -/
  | adcZp (zp : Byte)
  /-- `75` `ADC $nn,X` (ZPX), R200. -/
  | adcZpX (zp : Byte)
  /-- `6D` `ADC $hhll` (ABS), R200. -/
  | adcAbs (addr : Word)
  /-- `7D` `ADC $hhll,X` (ABSX), R200. -/
  | adcAbsX (addr : Word)
  /-- `79` `ADC $hhll,Y` (ABSY), R200. -/
  | adcAbsY (addr : Word)
  /-- `61` `ADC ($nn,X)` (INDX), R200. -/
  | adcIndX (zp : Byte)
  /-- `71` `ADC ($nn),Y` (INDY), R200. -/
  | adcIndY (zp : Byte)
  /-- `E9` `SBC #$nn` (IMM), R201. -/
  | sbcImm (m : Byte)
  /-- `E5` `SBC $nn` (ZP), R201. -/
  | sbcZp (zp : Byte)
  /-- `F5` `SBC $nn,X` (ZPX), R201. -/
  | sbcZpX (zp : Byte)
  /-- `ED` `SBC $hhll` (ABS), R201. -/
  | sbcAbs (addr : Word)
  /-- `FD` `SBC $hhll,X` (ABSX), R201. -/
  | sbcAbsX (addr : Word)
  /-- `F9` `SBC $hhll,Y` (ABSY), R201. -/
  | sbcAbsY (addr : Word)
  /-- `E1` `SBC ($nn,X)` (INDX), R201. -/
  | sbcIndX (zp : Byte)
  /-- `F1` `SBC ($nn),Y` (INDY), R201. -/
  | sbcIndY (zp : Byte)
  /-- `29` `AND #$nn` (IMM), R202. -/
  | andImm (m : Byte)
  /-- `25` `AND $nn` (ZP), R202. -/
  | andZp (zp : Byte)
  /-- `35` `AND $nn,X` (ZPX), R202. -/
  | andZpX (zp : Byte)
  /-- `2D` `AND $hhll` (ABS), R202. -/
  | andAbs (addr : Word)
  /-- `3D` `AND $hhll,X` (ABSX), R202. -/
  | andAbsX (addr : Word)
  /-- `39` `AND $hhll,Y` (ABSY), R202. -/
  | andAbsY (addr : Word)
  /-- `21` `AND ($nn,X)` (INDX), R202. -/
  | andIndX (zp : Byte)
  /-- `31` `AND ($nn),Y` (INDY), R202. -/
  | andIndY (zp : Byte)
  /-- `09` `ORA #$nn` (IMM), R203. -/
  | oraImm (m : Byte)
  /-- `05` `ORA $nn` (ZP), R203. -/
  | oraZp (zp : Byte)
  /-- `15` `ORA $nn,X` (ZPX), R203. -/
  | oraZpX (zp : Byte)
  /-- `0D` `ORA $hhll` (ABS), R203. -/
  | oraAbs (addr : Word)
  /-- `1D` `ORA $hhll,X` (ABSX), R203. -/
  | oraAbsX (addr : Word)
  /-- `19` `ORA $hhll,Y` (ABSY), R203. -/
  | oraAbsY (addr : Word)
  /-- `01` `ORA ($nn,X)` (INDX), R203. -/
  | oraIndX (zp : Byte)
  /-- `11` `ORA ($nn),Y` (INDY), R203. -/
  | oraIndY (zp : Byte)
  /-- `49` `EOR #$nn` (IMM), R204. -/
  | eorImm (m : Byte)
  /-- `45` `EOR $nn` (ZP), R204. -/
  | eorZp (zp : Byte)
  /-- `55` `EOR $nn,X` (ZPX), R204. -/
  | eorZpX (zp : Byte)
  /-- `4D` `EOR $hhll` (ABS), R204. -/
  | eorAbs (addr : Word)
  /-- `5D` `EOR $hhll,X` (ABSX), R204. -/
  | eorAbsX (addr : Word)
  /-- `59` `EOR $hhll,Y` (ABSY), R204. -/
  | eorAbsY (addr : Word)
  /-- `41` `EOR ($nn,X)` (INDX), R204. -/
  | eorIndX (zp : Byte)
  /-- `51` `EOR ($nn),Y` (INDY), R204. -/
  | eorIndY (zp : Byte)
  /-- `24` `BIT $nn` (ZP), R205. -/
  | bitZp (zp : Byte)
  /-- `2C` `BIT $hhll` (ABS), R205. -/
  | bitAbs (addr : Word)
  -- Increment and decrement (45_inc_dec.md)
  /-- `E6` `INC $nn` (ZP), R210. -/
  | incZp (zp : Byte)
  /-- `F6` `INC $nn,X` (ZPX), R210. -/
  | incZpX (zp : Byte)
  /-- `EE` `INC $hhll` (ABS), R210. -/
  | incAbs (addr : Word)
  /-- `FE` `INC $hhll,X` (ABSX), R210. -/
  | incAbsX (addr : Word)
  /-- `C6` `DEC $nn` (ZP), R211. -/
  | decZp (zp : Byte)
  /-- `D6` `DEC $nn,X` (ZPX), R211. -/
  | decZpX (zp : Byte)
  /-- `CE` `DEC $hhll` (ABS), R211. -/
  | decAbs (addr : Word)
  /-- `DE` `DEC $hhll,X` (ABSX), R211. -/
  | decAbsX (addr : Word)
  /-- `E8` `INX` (IMP), R212. -/
  | inx
  /-- `C8` `INY` (IMP), R213. -/
  | iny
  /-- `CA` `DEX` (IMP), R214. -/
  | dex
  /-- `88` `DEY` (IMP), R215. -/
  | dey
  -- Shift and rotate (46_shift_rotate.md)
  /-- `0A` `ASL A` (ACC), R220. -/
  | aslAcc
  /-- `06` `ASL $nn` (ZP), R220. -/
  | aslZp (zp : Byte)
  /-- `16` `ASL $nn,X` (ZPX), R220. -/
  | aslZpX (zp : Byte)
  /-- `0E` `ASL $hhll` (ABS), R220. -/
  | aslAbs (addr : Word)
  /-- `1E` `ASL $hhll,X` (ABSX), R220. -/
  | aslAbsX (addr : Word)
  /-- `4A` `LSR A` (ACC), R221. -/
  | lsrAcc
  /-- `46` `LSR $nn` (ZP), R221. -/
  | lsrZp (zp : Byte)
  /-- `56` `LSR $nn,X` (ZPX), R221. -/
  | lsrZpX (zp : Byte)
  /-- `4E` `LSR $hhll` (ABS), R221. -/
  | lsrAbs (addr : Word)
  /-- `5E` `LSR $hhll,X` (ABSX), R221. -/
  | lsrAbsX (addr : Word)
  /-- `2A` `ROL A` (ACC), R222. -/
  | rolAcc
  /-- `26` `ROL $nn` (ZP), R222. -/
  | rolZp (zp : Byte)
  /-- `36` `ROL $nn,X` (ZPX), R222. -/
  | rolZpX (zp : Byte)
  /-- `2E` `ROL $hhll` (ABS), R222. -/
  | rolAbs (addr : Word)
  /-- `3E` `ROL $hhll,X` (ABSX), R222. -/
  | rolAbsX (addr : Word)
  /-- `6A` `ROR A` (ACC), R223. -/
  | rorAcc
  /-- `66` `ROR $nn` (ZP), R223. -/
  | rorZp (zp : Byte)
  /-- `76` `ROR $nn,X` (ZPX), R223. -/
  | rorZpX (zp : Byte)
  /-- `6E` `ROR $hhll` (ABS), R223. -/
  | rorAbs (addr : Word)
  /-- `7E` `ROR $hhll,X` (ABSX), R223. -/
  | rorAbsX (addr : Word)
  -- Compare (47_compare.md)
  /-- `C9` `CMP #$nn` (IMM), R230. -/
  | cmpImm (m : Byte)
  /-- `C5` `CMP $nn` (ZP), R230. -/
  | cmpZp (zp : Byte)
  /-- `D5` `CMP $nn,X` (ZPX), R230. -/
  | cmpZpX (zp : Byte)
  /-- `CD` `CMP $hhll` (ABS), R230. -/
  | cmpAbs (addr : Word)
  /-- `DD` `CMP $hhll,X` (ABSX), R230. -/
  | cmpAbsX (addr : Word)
  /-- `D9` `CMP $hhll,Y` (ABSY), R230. -/
  | cmpAbsY (addr : Word)
  /-- `C1` `CMP ($nn,X)` (INDX), R230. -/
  | cmpIndX (zp : Byte)
  /-- `D1` `CMP ($nn),Y` (INDY), R230. -/
  | cmpIndY (zp : Byte)
  /-- `E0` `CPX #$nn` (IMM), R231. -/
  | cpxImm (m : Byte)
  /-- `E4` `CPX $nn` (ZP), R231. -/
  | cpxZp (zp : Byte)
  /-- `EC` `CPX $hhll` (ABS), R231. -/
  | cpxAbs (addr : Word)
  /-- `C0` `CPY #$nn` (IMM), R232. -/
  | cpyImm (m : Byte)
  /-- `C4` `CPY $nn` (ZP), R232. -/
  | cpyZp (zp : Byte)
  /-- `CC` `CPY $hhll` (ABS), R232. -/
  | cpyAbs (addr : Word)
  -- Branch, jump and subroutine (48_branch_jump.md)
  /-- `90` `BCC $target` (REL), R240. -/
  | bcc (disp : Int)
  /-- `B0` `BCS $target` (REL), R241. -/
  | bcs (disp : Int)
  /-- `F0` `BEQ $target` (REL), R242. -/
  | beq (disp : Int)
  /-- `30` `BMI $target` (REL), R243. -/
  | bmi (disp : Int)
  /-- `D0` `BNE $target` (REL), R244. -/
  | bne (disp : Int)
  /-- `10` `BPL $target` (REL), R245. -/
  | bpl (disp : Int)
  /-- `50` `BVC $target` (REL), R246. -/
  | bvc (disp : Int)
  /-- `70` `BVS $target` (REL), R247. -/
  | bvs (disp : Int)
  /-- `4C` `JMP $hhll` (ABS), R248. -/
  | jmpAbs (addr : Word)
  /-- `6C` `JMP ($hhll)` (IND), R248. -/
  | jmpInd (ptr : Word)
  /-- `20` `JSR $hhll` (ABS), R249. -/
  | jsr (addr : Word)
  /-- `60` `RTS` (IMP), R250. -/
  | rts
  -- Flags, NOP, BRK and RTI (49_flag_nop_brk_rti.md)
  /-- `18` `CLC` (IMP), R260. -/
  | clc
  /-- `D8` `CLD` (IMP), R261. -/
  | cld
  /-- `58` `CLI` (IMP), R262. -/
  | cli
  /-- `B8` `CLV` (IMP), R263. -/
  | clv
  /-- `38` `SEC` (IMP), R264. -/
  | sec
  /-- `F8` `SED` (IMP), R265. -/
  | sed
  /-- `78` `SEI` (IMP), R266. -/
  | sei
  /-- `EA` `NOP` (IMP), R267. -/
  | nop
  /-- `00` `BRK` (IMP), R268. -/
  | brk
  /-- `40` `RTI` (IMP), R269. -/
  | rti
  deriving DecidableEq, Repr

end Sys2Proof
end

