-- ==== Sys2Proof/WellFormed.lean ====
section
/-!
DEFINITION. Which instructions are well formed. Every operand but one is unsigned and takes every value of its width (R112),
so its type is its whole check. "The only signed operand is the Relative displacement, sign-extended from 8 bits by `sext_8`
(range −128..+127, relative to PC + 2)" (R112, R118): that range is the check made here.
-/

namespace Sys2Proof

/-- The range of a branch displacement (R112, R118). -/
def displacementInRange (disp : Int) : Bool :=
  decide (-128 ≤ disp) && decide (disp ≤ 127)

/-- An instruction is well formed when the encoding of R110 to R113 can hold its operand. -/
def Instr.wellFormed : Instr → Bool
  | .bpl disp => displacementInRange disp
  | .bmi disp => displacementInRange disp
  | .bvc disp => displacementInRange disp
  | .bvs disp => displacementInRange disp
  | .bcc disp => displacementInRange disp
  | .bcs disp => displacementInRange disp
  | .bne disp => displacementInRange disp
  | .beq disp => displacementInRange disp
  | .ldaImm _ | .ldaZp _ | .ldaZpX _ | .ldaAbs _ | .ldaAbsX _ | .ldaAbsY _ | .ldaIndX _ | .ldaIndY _ => true
  | .ldxImm _ | .ldxZp _ | .ldxZpY _ | .ldxAbs _ | .ldxAbsY _ => true
  | .ldyImm _ | .ldyZp _ | .ldyZpX _ | .ldyAbs _ | .ldyAbsX _ => true
  | .staZp _ | .staZpX _ | .staAbs _ | .staAbsX _ | .staAbsY _ | .staIndX _ | .staIndY _ => true
  | .stxZp _ | .stxZpY _ | .stxAbs _ => true
  | .styZp _ | .styZpX _ | .styAbs _ => true
  | .tax => true
  | .tay => true
  | .tsx => true
  | .txa => true
  | .txs => true
  | .tya => true
  | .pha => true
  | .php => true
  | .pla => true
  | .plp => true
  | .adcImm _ | .adcZp _ | .adcZpX _ | .adcAbs _ | .adcAbsX _ | .adcAbsY _ | .adcIndX _ | .adcIndY _ => true
  | .sbcImm _ | .sbcZp _ | .sbcZpX _ | .sbcAbs _ | .sbcAbsX _ | .sbcAbsY _ | .sbcIndX _ | .sbcIndY _ => true
  | .andImm _ | .andZp _ | .andZpX _ | .andAbs _ | .andAbsX _ | .andAbsY _ | .andIndX _ | .andIndY _ => true
  | .oraImm _ | .oraZp _ | .oraZpX _ | .oraAbs _ | .oraAbsX _ | .oraAbsY _ | .oraIndX _ | .oraIndY _ => true
  | .eorImm _ | .eorZp _ | .eorZpX _ | .eorAbs _ | .eorAbsX _ | .eorAbsY _ | .eorIndX _ | .eorIndY _ => true
  | .bitZp _ | .bitAbs _ => true
  | .incZp _ | .incZpX _ | .incAbs _ | .incAbsX _ => true
  | .decZp _ | .decZpX _ | .decAbs _ | .decAbsX _ => true
  | .inx => true
  | .iny => true
  | .dex => true
  | .dey => true
  | .aslAcc | .aslZp _ | .aslZpX _ | .aslAbs _ | .aslAbsX _ => true
  | .lsrAcc | .lsrZp _ | .lsrZpX _ | .lsrAbs _ | .lsrAbsX _ => true
  | .rolAcc | .rolZp _ | .rolZpX _ | .rolAbs _ | .rolAbsX _ => true
  | .rorAcc | .rorZp _ | .rorZpX _ | .rorAbs _ | .rorAbsX _ => true
  | .cmpImm _ | .cmpZp _ | .cmpZpX _ | .cmpAbs _ | .cmpAbsX _ | .cmpAbsY _ | .cmpIndX _ | .cmpIndY _ => true
  | .cpxImm _ | .cpxZp _ | .cpxAbs _ => true
  | .cpyImm _ | .cpyZp _ | .cpyAbs _ => true
  | .jmpAbs _ | .jmpInd _ => true
  | .jsr _ => true
  | .rts => true
  | .clc => true
  | .cld => true
  | .cli => true
  | .clv => true
  | .sec => true
  | .sed => true
  | .sei => true
  | .nop => true
  | .brk => true
  | .rti => true

end Sys2Proof
end

