-- ==== Sys2Proof/Decode.lean ====
section
/-!
DEFINITION. Decoding and encoding (30_encoding.md R110 to R117). The opcode byte alone selects the row of R113, and with it
the mnemonic, the addressing mode and the length; the rest of the instruction is 0, 1 or 2 operand bytes. A byte with no row
is illegal (R115) and is rejected by name.
-/

namespace Sys2Proof

/-- `(hi << 8) | lo`, the only concatenation of the spec (Notation), little-endian (R70, R112). -/
def wordOf (lo hi : Byte) : Word := hi ++ lo

/-- The low byte of a word, stored at the lower address (R70). -/
def loByte (w : Word) : Byte := w.setWidth 8

/-- The high byte of a word (R70). -/
def hiByte (w : Word) : Byte := (w >>> 8).setWidth 8

/-- What an opcode row asks of the bytes after the opcode (R111): nothing, one operand byte, or two. -/
inductive Template where
  /-- Length 1: implied and accumulator rows. -/
  | alone (i : Instr)
  /-- Length 2: the row's instruction as a function of b1. -/
  | oneByte (make : Byte → Instr)
  /-- Length 3: the row's instruction as a function of the word `(b2 << 8) | b1`. -/
  | twoBytes (make : Word → Instr)

/-- The signed displacement of a Relative operand: `sext_8(b1)` (R112, R152). -/
def signedByte (b : Byte) : Int := b.toInt

/-- A branch row: its operand byte is the signed displacement (R112). -/
def Template.branch (make : Int → Instr) : Template := .oneByte fun b => make (signedByte b)

/-- The row of R113 that an opcode byte selects; none for the 105 illegal values of R115. -/
def rowOf (opcode : Byte) : Option Template :=
  match opcode.toNat with
  | 0x00 => some (.alone .brk)
  | 0x01 => some (.oneByte .oraIndX)
  | 0x05 => some (.oneByte .oraZp)
  | 0x06 => some (.oneByte .aslZp)
  | 0x08 => some (.alone .php)
  | 0x09 => some (.oneByte .oraImm)
  | 0x0A => some (.alone .aslAcc)
  | 0x0D => some (.twoBytes .oraAbs)
  | 0x0E => some (.twoBytes .aslAbs)
  | 0x10 => some (.branch .bpl)
  | 0x11 => some (.oneByte .oraIndY)
  | 0x15 => some (.oneByte .oraZpX)
  | 0x16 => some (.oneByte .aslZpX)
  | 0x18 => some (.alone .clc)
  | 0x19 => some (.twoBytes .oraAbsY)
  | 0x1D => some (.twoBytes .oraAbsX)
  | 0x1E => some (.twoBytes .aslAbsX)
  | 0x20 => some (.twoBytes .jsr)
  | 0x21 => some (.oneByte .andIndX)
  | 0x24 => some (.oneByte .bitZp)
  | 0x25 => some (.oneByte .andZp)
  | 0x26 => some (.oneByte .rolZp)
  | 0x28 => some (.alone .plp)
  | 0x29 => some (.oneByte .andImm)
  | 0x2A => some (.alone .rolAcc)
  | 0x2C => some (.twoBytes .bitAbs)
  | 0x2D => some (.twoBytes .andAbs)
  | 0x2E => some (.twoBytes .rolAbs)
  | 0x30 => some (.branch .bmi)
  | 0x31 => some (.oneByte .andIndY)
  | 0x35 => some (.oneByte .andZpX)
  | 0x36 => some (.oneByte .rolZpX)
  | 0x38 => some (.alone .sec)
  | 0x39 => some (.twoBytes .andAbsY)
  | 0x3D => some (.twoBytes .andAbsX)
  | 0x3E => some (.twoBytes .rolAbsX)
  | 0x40 => some (.alone .rti)
  | 0x41 => some (.oneByte .eorIndX)
  | 0x45 => some (.oneByte .eorZp)
  | 0x46 => some (.oneByte .lsrZp)
  | 0x48 => some (.alone .pha)
  | 0x49 => some (.oneByte .eorImm)
  | 0x4A => some (.alone .lsrAcc)
  | 0x4C => some (.twoBytes .jmpAbs)
  | 0x4D => some (.twoBytes .eorAbs)
  | 0x4E => some (.twoBytes .lsrAbs)
  | 0x50 => some (.branch .bvc)
  | 0x51 => some (.oneByte .eorIndY)
  | 0x55 => some (.oneByte .eorZpX)
  | 0x56 => some (.oneByte .lsrZpX)
  | 0x58 => some (.alone .cli)
  | 0x59 => some (.twoBytes .eorAbsY)
  | 0x5D => some (.twoBytes .eorAbsX)
  | 0x5E => some (.twoBytes .lsrAbsX)
  | 0x60 => some (.alone .rts)
  | 0x61 => some (.oneByte .adcIndX)
  | 0x65 => some (.oneByte .adcZp)
  | 0x66 => some (.oneByte .rorZp)
  | 0x68 => some (.alone .pla)
  | 0x69 => some (.oneByte .adcImm)
  | 0x6A => some (.alone .rorAcc)
  | 0x6C => some (.twoBytes .jmpInd)
  | 0x6D => some (.twoBytes .adcAbs)
  | 0x6E => some (.twoBytes .rorAbs)
  | 0x70 => some (.branch .bvs)
  | 0x71 => some (.oneByte .adcIndY)
  | 0x75 => some (.oneByte .adcZpX)
  | 0x76 => some (.oneByte .rorZpX)
  | 0x78 => some (.alone .sei)
  | 0x79 => some (.twoBytes .adcAbsY)
  | 0x7D => some (.twoBytes .adcAbsX)
  | 0x7E => some (.twoBytes .rorAbsX)
  | 0x81 => some (.oneByte .staIndX)
  | 0x84 => some (.oneByte .styZp)
  | 0x85 => some (.oneByte .staZp)
  | 0x86 => some (.oneByte .stxZp)
  | 0x88 => some (.alone .dey)
  | 0x8A => some (.alone .txa)
  | 0x8C => some (.twoBytes .styAbs)
  | 0x8D => some (.twoBytes .staAbs)
  | 0x8E => some (.twoBytes .stxAbs)
  | 0x90 => some (.branch .bcc)
  | 0x91 => some (.oneByte .staIndY)
  | 0x94 => some (.oneByte .styZpX)
  | 0x95 => some (.oneByte .staZpX)
  | 0x96 => some (.oneByte .stxZpY)
  | 0x98 => some (.alone .tya)
  | 0x99 => some (.twoBytes .staAbsY)
  | 0x9A => some (.alone .txs)
  | 0x9D => some (.twoBytes .staAbsX)
  | 0xA0 => some (.oneByte .ldyImm)
  | 0xA1 => some (.oneByte .ldaIndX)
  | 0xA2 => some (.oneByte .ldxImm)
  | 0xA4 => some (.oneByte .ldyZp)
  | 0xA5 => some (.oneByte .ldaZp)
  | 0xA6 => some (.oneByte .ldxZp)
  | 0xA8 => some (.alone .tay)
  | 0xA9 => some (.oneByte .ldaImm)
  | 0xAA => some (.alone .tax)
  | 0xAC => some (.twoBytes .ldyAbs)
  | 0xAD => some (.twoBytes .ldaAbs)
  | 0xAE => some (.twoBytes .ldxAbs)
  | 0xB0 => some (.branch .bcs)
  | 0xB1 => some (.oneByte .ldaIndY)
  | 0xB4 => some (.oneByte .ldyZpX)
  | 0xB5 => some (.oneByte .ldaZpX)
  | 0xB6 => some (.oneByte .ldxZpY)
  | 0xB8 => some (.alone .clv)
  | 0xB9 => some (.twoBytes .ldaAbsY)
  | 0xBA => some (.alone .tsx)
  | 0xBC => some (.twoBytes .ldyAbsX)
  | 0xBD => some (.twoBytes .ldaAbsX)
  | 0xBE => some (.twoBytes .ldxAbsY)
  | 0xC0 => some (.oneByte .cpyImm)
  | 0xC1 => some (.oneByte .cmpIndX)
  | 0xC4 => some (.oneByte .cpyZp)
  | 0xC5 => some (.oneByte .cmpZp)
  | 0xC6 => some (.oneByte .decZp)
  | 0xC8 => some (.alone .iny)
  | 0xC9 => some (.oneByte .cmpImm)
  | 0xCA => some (.alone .dex)
  | 0xCC => some (.twoBytes .cpyAbs)
  | 0xCD => some (.twoBytes .cmpAbs)
  | 0xCE => some (.twoBytes .decAbs)
  | 0xD0 => some (.branch .bne)
  | 0xD1 => some (.oneByte .cmpIndY)
  | 0xD5 => some (.oneByte .cmpZpX)
  | 0xD6 => some (.oneByte .decZpX)
  | 0xD8 => some (.alone .cld)
  | 0xD9 => some (.twoBytes .cmpAbsY)
  | 0xDD => some (.twoBytes .cmpAbsX)
  | 0xDE => some (.twoBytes .decAbsX)
  | 0xE0 => some (.oneByte .cpxImm)
  | 0xE1 => some (.oneByte .sbcIndX)
  | 0xE4 => some (.oneByte .cpxZp)
  | 0xE5 => some (.oneByte .sbcZp)
  | 0xE6 => some (.oneByte .incZp)
  | 0xE8 => some (.alone .inx)
  | 0xE9 => some (.oneByte .sbcImm)
  | 0xEA => some (.alone .nop)
  | 0xEC => some (.twoBytes .cpxAbs)
  | 0xED => some (.twoBytes .sbcAbs)
  | 0xEE => some (.twoBytes .incAbs)
  | 0xF0 => some (.branch .beq)
  | 0xF1 => some (.oneByte .sbcIndY)
  | 0xF5 => some (.oneByte .sbcZpX)
  | 0xF6 => some (.oneByte .incZpX)
  | 0xF8 => some (.alone .sed)
  | 0xF9 => some (.twoBytes .sbcAbsY)
  | 0xFD => some (.twoBytes .sbcAbsX)
  | 0xFE => some (.twoBytes .incAbsX)
  | _ => none

/-- Why a list of bytes holds no instruction at its front. -/
inductive Reject where
  /-- The opcode byte has no row in R113 (R115). -/
  | illegalOpcode (opcode : Byte)
  /-- The list ends before the opcode or the operand bytes that the row's mode calls for. -/
  | truncated
  deriving DecidableEq, Repr

/-- Read one instruction from the front of a list of bytes: the instruction and the bytes after it. It reads only the
operand bytes that the row's mode calls for (R117). -/
def decode (bytes : List Byte) : Except Reject (Instr × List Byte) :=
  match bytes with
  | [] => .error .truncated
  | opcode :: rest =>
    match rowOf opcode, rest with
    | none, _ => .error (.illegalOpcode opcode)
    | some (.alone i), _ => .ok (i, rest)
    | some (.oneByte make), b1 :: rest' => .ok (make b1, rest')
    | some (.twoBytes make), b1 :: b2 :: rest' => .ok (make (wordOf b1 b2), rest')
    | some (.oneByte _), [] => .error .truncated
    | some (.twoBytes _), [] => .error .truncated
    | some (.twoBytes _), [_] => .error .truncated

/-- The two bytes of a branch: opcode and displacement byte (R118: the assembler encodes `target − (PC + 2)`). -/
def encodeBranch (opcode : Byte) (disp : Int) : List Byte := [opcode, BitVec.ofInt 8 disp]

/-- The three bytes of an instruction with a word operand: opcode, low byte, high byte (R110, R112). -/
def encodeWord (opcode : Byte) (w : Word) : List Byte := [opcode, loByte w, hiByte w]

/-- The bytes of an instruction, in address order (R110, R113). -/
def encode : Instr → List Byte
  | .ldaImm m => [0xA9, m]
  | .ldaZp zp => [0xA5, zp]
  | .ldaZpX zp => [0xB5, zp]
  | .ldaAbs addr => encodeWord 0xAD addr
  | .ldaAbsX addr => encodeWord 0xBD addr
  | .ldaAbsY addr => encodeWord 0xB9 addr
  | .ldaIndX zp => [0xA1, zp]
  | .ldaIndY zp => [0xB1, zp]
  | .ldxImm m => [0xA2, m]
  | .ldxZp zp => [0xA6, zp]
  | .ldxZpY zp => [0xB6, zp]
  | .ldxAbs addr => encodeWord 0xAE addr
  | .ldxAbsY addr => encodeWord 0xBE addr
  | .ldyImm m => [0xA0, m]
  | .ldyZp zp => [0xA4, zp]
  | .ldyZpX zp => [0xB4, zp]
  | .ldyAbs addr => encodeWord 0xAC addr
  | .ldyAbsX addr => encodeWord 0xBC addr
  | .staZp zp => [0x85, zp]
  | .staZpX zp => [0x95, zp]
  | .staAbs addr => encodeWord 0x8D addr
  | .staAbsX addr => encodeWord 0x9D addr
  | .staAbsY addr => encodeWord 0x99 addr
  | .staIndX zp => [0x81, zp]
  | .staIndY zp => [0x91, zp]
  | .stxZp zp => [0x86, zp]
  | .stxZpY zp => [0x96, zp]
  | .stxAbs addr => encodeWord 0x8E addr
  | .styZp zp => [0x84, zp]
  | .styZpX zp => [0x94, zp]
  | .styAbs addr => encodeWord 0x8C addr
  | .tax => [0xAA]
  | .tay => [0xA8]
  | .tsx => [0xBA]
  | .txa => [0x8A]
  | .txs => [0x9A]
  | .tya => [0x98]
  | .pha => [0x48]
  | .php => [0x08]
  | .pla => [0x68]
  | .plp => [0x28]
  | .adcImm m => [0x69, m]
  | .adcZp zp => [0x65, zp]
  | .adcZpX zp => [0x75, zp]
  | .adcAbs addr => encodeWord 0x6D addr
  | .adcAbsX addr => encodeWord 0x7D addr
  | .adcAbsY addr => encodeWord 0x79 addr
  | .adcIndX zp => [0x61, zp]
  | .adcIndY zp => [0x71, zp]
  | .sbcImm m => [0xE9, m]
  | .sbcZp zp => [0xE5, zp]
  | .sbcZpX zp => [0xF5, zp]
  | .sbcAbs addr => encodeWord 0xED addr
  | .sbcAbsX addr => encodeWord 0xFD addr
  | .sbcAbsY addr => encodeWord 0xF9 addr
  | .sbcIndX zp => [0xE1, zp]
  | .sbcIndY zp => [0xF1, zp]
  | .andImm m => [0x29, m]
  | .andZp zp => [0x25, zp]
  | .andZpX zp => [0x35, zp]
  | .andAbs addr => encodeWord 0x2D addr
  | .andAbsX addr => encodeWord 0x3D addr
  | .andAbsY addr => encodeWord 0x39 addr
  | .andIndX zp => [0x21, zp]
  | .andIndY zp => [0x31, zp]
  | .oraImm m => [0x09, m]
  | .oraZp zp => [0x05, zp]
  | .oraZpX zp => [0x15, zp]
  | .oraAbs addr => encodeWord 0x0D addr
  | .oraAbsX addr => encodeWord 0x1D addr
  | .oraAbsY addr => encodeWord 0x19 addr
  | .oraIndX zp => [0x01, zp]
  | .oraIndY zp => [0x11, zp]
  | .eorImm m => [0x49, m]
  | .eorZp zp => [0x45, zp]
  | .eorZpX zp => [0x55, zp]
  | .eorAbs addr => encodeWord 0x4D addr
  | .eorAbsX addr => encodeWord 0x5D addr
  | .eorAbsY addr => encodeWord 0x59 addr
  | .eorIndX zp => [0x41, zp]
  | .eorIndY zp => [0x51, zp]
  | .bitZp zp => [0x24, zp]
  | .bitAbs addr => encodeWord 0x2C addr
  | .incZp zp => [0xE6, zp]
  | .incZpX zp => [0xF6, zp]
  | .incAbs addr => encodeWord 0xEE addr
  | .incAbsX addr => encodeWord 0xFE addr
  | .decZp zp => [0xC6, zp]
  | .decZpX zp => [0xD6, zp]
  | .decAbs addr => encodeWord 0xCE addr
  | .decAbsX addr => encodeWord 0xDE addr
  | .inx => [0xE8]
  | .iny => [0xC8]
  | .dex => [0xCA]
  | .dey => [0x88]
  | .aslAcc => [0x0A]
  | .aslZp zp => [0x06, zp]
  | .aslZpX zp => [0x16, zp]
  | .aslAbs addr => encodeWord 0x0E addr
  | .aslAbsX addr => encodeWord 0x1E addr
  | .lsrAcc => [0x4A]
  | .lsrZp zp => [0x46, zp]
  | .lsrZpX zp => [0x56, zp]
  | .lsrAbs addr => encodeWord 0x4E addr
  | .lsrAbsX addr => encodeWord 0x5E addr
  | .rolAcc => [0x2A]
  | .rolZp zp => [0x26, zp]
  | .rolZpX zp => [0x36, zp]
  | .rolAbs addr => encodeWord 0x2E addr
  | .rolAbsX addr => encodeWord 0x3E addr
  | .rorAcc => [0x6A]
  | .rorZp zp => [0x66, zp]
  | .rorZpX zp => [0x76, zp]
  | .rorAbs addr => encodeWord 0x6E addr
  | .rorAbsX addr => encodeWord 0x7E addr
  | .cmpImm m => [0xC9, m]
  | .cmpZp zp => [0xC5, zp]
  | .cmpZpX zp => [0xD5, zp]
  | .cmpAbs addr => encodeWord 0xCD addr
  | .cmpAbsX addr => encodeWord 0xDD addr
  | .cmpAbsY addr => encodeWord 0xD9 addr
  | .cmpIndX zp => [0xC1, zp]
  | .cmpIndY zp => [0xD1, zp]
  | .cpxImm m => [0xE0, m]
  | .cpxZp zp => [0xE4, zp]
  | .cpxAbs addr => encodeWord 0xEC addr
  | .cpyImm m => [0xC0, m]
  | .cpyZp zp => [0xC4, zp]
  | .cpyAbs addr => encodeWord 0xCC addr
  | .bcc disp => encodeBranch 0x90 disp
  | .bcs disp => encodeBranch 0xB0 disp
  | .beq disp => encodeBranch 0xF0 disp
  | .bmi disp => encodeBranch 0x30 disp
  | .bne disp => encodeBranch 0xD0 disp
  | .bpl disp => encodeBranch 0x10 disp
  | .bvc disp => encodeBranch 0x50 disp
  | .bvs disp => encodeBranch 0x70 disp
  | .jmpAbs addr => encodeWord 0x4C addr
  | .jmpInd ptr => encodeWord 0x6C ptr
  | .jsr addr => encodeWord 0x20 addr
  | .rts => [0x60]
  | .clc => [0x18]
  | .cld => [0xD8]
  | .cli => [0x58]
  | .clv => [0xB8]
  | .sec => [0x38]
  | .sed => [0xF8]
  | .sei => [0x78]
  | .nop => [0xEA]
  | .brk => [0x00]
  | .rti => [0x40]

/-- Byte `k` of a table word, counting from the first byte (the opcode, bits 7..0), with every bit from `nbits` up zero. -/
def tableByte (nbits w k : Nat) : Byte := BitVec.ofNat 8 ((w % 2 ^ nbits) >>> (8 * k))

/-- The three bytes (the longest instruction, R110) that a table word of `nbits` bits stands for, lowest address first. -/
def tableBytes (nbits w : Nat) : List Byte := [tableByte nbits w 0, tableByte nbits w 1, tableByte nbits w 2]

/-- The instruction that the decoder reads from a word numbered as spec/opcode_table.json numbers it: bits 7..0 are the
opcode byte, 15..8 the first operand byte, 23..16 the second. -/
def decodeTableWord (nbits w : Nat) : Option Instr :=
  match decode (tableBytes nbits w) with
  | .ok (i, _) => some i
  | .error _ => none

end Sys2Proof
end

