-- ==== Sys2Proof/Config.lean ====
section
/-!
DEFINITION. What is fixed for a machine (R6, R10, R30): the cartridge image and the parameters BRK_MODE and MASK_GATING, as
plain data; and the two OPEN parameters that the spec gives no values for, OPEN_BUS and SYSTEM_PALETTE, and the one sprite
byte it states no value for, as opaque constants. "No instruction changes them" (R10).
-/

namespace Sys2Proof

/-- BRK_MODE (R6, D1): `Vector` is the default. -/
inductive BrkMode where
  | vector
  | halt
  deriving DecidableEq, Repr

/-- MASK_GATING (R6, D2): `Hardware` is the default. -/
inductive MaskGating where
  | hardware
  | ignored
  deriving DecidableEq, Repr

/-- MIRRORING, from the cartridge header (R30, R90). -/
inductive Mirroring where
  | horizontal
  | vertical
  | fourScreen
  deriving DecidableEq, Repr

/-- The two PRG sizes a load accepts (R30, D20). -/
inductive PrgSize where
  | kib16
  | kib32
  deriving DecidableEq, Repr

/-- PRG_SIZE in bytes (R30). -/
def PrgSize.bytes : PrgSize → Nat
  | .kib16 => 16384
  | .kib32 => 32768

/-- The cartridge and the parameters (R6, R30). -/
structure Config where
  brkMode : BrkMode
  maskGating : MaskGating
  mirroring : Mirroring
  prgSize : PrgSize
  prgRom : Memory 8
  chrRom : Memory 8
  deriving DecidableEq, Repr

/-- DESIGN CHOICE (log 1), unsafe. The configuration of a machine that no cartridge image has been loaded into: both parameters
at their defaults (D1, D2), 16 KiB of PRG and 8 KiB of CHR with every byte zero, Horizontal mirroring (header bits zero). -/
def Config.blank : Config where
  brkMode := .vector
  maskGating := .hardware
  mirroring := .horizontal
  prgSize := .kib16
  prgRom := []
  chrRom := []

/-- OPEN_BUS (R6, R29, D3): the byte that draw number `n` of an unbacked read returns, with no law. A free value (log 2). -/
opaque Config.openBus : Nat → Byte

/-- The pattern byte of a sprite row whose address is negative, for which R379 states no value. A free value (log 3). -/
opaque Config.offMapPattern : Nat → Byte

/-- SYSTEM_PALETTE (R6, D4): the RGB triple of a color index. OPEN in the spec, a free value (log 6). -/
opaque Config.systemPalette : BitVec 6 → Byte × Byte × Byte

end Sys2Proof
end

