-- ==== Sys2Proof/Machine/State.lean ====
section
/-!
DEFINITION. The state of the machine: "one record with three groups" (R10), CPU (R11 to R21), bus (R22 to R29) and PPU (R31
to R47), with the configuration beside them and the trace lines emitted so far; the reasons a run stops; and the state right
after reset (R440, R441).
-/

namespace Sys2Proof.Machine

/-- The fault kinds of R415 with their records (D29). Safe: each is a stop that the spec itself orders.
An instruction that faults answers a next state whose `runStatus` is `faulted`, holding every effect before the fault (R155,
R418); `step` answers `.fault` from that state on (log 10). -/
inductive Fault where
  /-- Code 1. Raised by the opcode read of execute_one for the 105 opcodes with no row (R115). -/
  | unknownOpcode (opcode : Byte) (pc : Word)
  /-- Code 2. Raised by a CPU write to `$8000–$FFFF` (R80). -/
  | prgRomWrite (addr : Word)
  /-- Code 3. Raised by a `$2007` write with v below `$2000` (R89). -/
  | chrRomWrite (addr : Loopy)
  /-- Code 4. Raised by a `$2007` read or write with v at `$4000` or above (R88). -/
  | ppuAddressOutOfRange (addr : Loopy)
  deriving DecidableEq, Repr

/-- The fault codes of R415 (D29). -/
def Fault.code : Fault → Nat
  | .unknownOpcode _ _ => 1
  | .prgRomWrite _ => 2
  | .chrRomWrite _ => 3
  | .ppuAddressOutOfRange _ => 4

/-- Why an instruction has no meaning. Every instruction has one, so nothing raises this; safe. -/
inductive Refusal where
  /-- Raised by an arm of `exec` whose instruction is not modelled; no arm is. Safe. -/
  | notModelled (mnemonic : String)
  deriving DecidableEq, Repr

/-- `run_status` (R19). -/
inductive RunStatus where
  | running
  | halted
  | faulted (f : Fault)
  deriving DecidableEq, Repr

/-- The CPU group (R11 to R21). -/
structure Cpu where
  /-- Accumulator (R11). -/
  a : Byte
  /-- Index register X (R12). -/
  x : Byte
  /-- Index register Y (R13). -/
  y : Byte
  /-- Stack pointer: `$0100 | SP` is the next free slot (R14). -/
  sp : Byte
  /-- Program counter (R15). -/
  pc : Word
  /-- Processor status, `N V 1 B D I Z C` (R16). -/
  p : Byte
  /-- Run status (R19). -/
  runStatus : RunStatus
  /-- CPU sub-steps taken (R20). -/
  cycles : Nat
  /-- CPU cycles owed before the next opcode fetch (R21). -/
  idleCycles : Nat
  deriving DecidableEq, Repr

/-- One controller port's own state (R26). -/
structure Pad where
  /-- `R L D U Start Select B A` from bit 7 down to bit 0; only the host writes it. -/
  buttons : Byte
  /-- The read cursor. -/
  cursor : BitVec 3
  deriving DecidableEq, Repr

/-- `dma_phase` (R27). -/
inductive DmaPhase where
  | read
  | write
  deriving DecidableEq, Repr

/-- OAM-DMA state (R27). -/
structure OamDma where
  active : Bool
  page : Byte
  /-- 0..256. -/
  count : Nat
  /-- 0..2, alignment cycles still to wait. -/
  align : Nat
  phase : DmaPhase
  latch : Byte
  deriving DecidableEq, Repr

/-- The bus group (R22 to R29). -/
structure Bus where
  /-- 2048 bytes (R22). -/
  ram : Memory 8
  /-- 8160 bytes (R23). -/
  scratch : Memory 8
  /-- 8192 bytes (R25). -/
  prgRam : Memory 8
  /-- The NMI flag (R24). -/
  nmiGenerated : Bool
  /-- Port 0, at `$4016` (R26). -/
  pad0 : Pad
  /-- Port 1, at `$4017` (R26). -/
  pad1 : Pad
  /-- One strobe flag for both ports (R26). -/
  strobe : Bool
  dma : OamDma
  /-- The PPU-to-CPU divider (R28). -/
  clockDiv : Fin 3
  /-- The model's own field: how many OPEN_BUS draws have been made (R29, log 2). -/
  openBusDraws : Nat
  deriving DecidableEq, Repr

/-- The three stored bits of PPUSTATUS (R33). -/
structure PpuStatus where
  /-- Bit 7. -/
  vblank : Bool
  /-- Bit 6. -/
  sprite0Hit : Bool
  /-- Bit 5. -/
  spriteOverflow : Bool
  deriving DecidableEq, Repr

/-- One fetched background tile (R41). -/
structure TileLatch where
  patLo : Byte
  patHi : Byte
  pal : BitVec 2
  deriving DecidableEq, Repr

/-- One sprite of the current scanline (R40). -/
structure Slot where
  x : Byte
  attr : Byte
  patLo : Byte
  patHi : Byte
  isSprite0 : Bool
  deriving DecidableEq, Repr

/-- The PPU group (R31 to R47). -/
structure Ppu where
  /-- PPUCTRL (R31). -/
  ctrl : Byte
  /-- PPUMASK (R32). -/
  mask : Byte
  /-- PPUSTATUS (R33). -/
  status : PpuStatus
  /-- OAMADDR (R34). -/
  oamAddr : Byte
  /-- The `$2007` read buffer (R35). -/
  readBuffer : Byte
  /-- Nametable memory, 2 KiB, or 4 KiB under FourScreen (R36). -/
  vram : Memory 8
  /-- 32 bytes of palette RAM (R37). -/
  palette : Memory 8
  /-- 256 bytes: 64 sprites of Y, tile, attributes, X (R38). -/
  oam : Memory 8
  /-- 32 bytes of secondary OAM (R39). -/
  secOam : Memory 8
  /-- Sprites in secondary OAM, 0..8 (R39). -/
  secCount : Nat
  /-- Their OAM indices (R39). -/
  secIndex : Vector (BitVec 6) 8
  /-- Sprite output slots (R40). -/
  slots : Vector Slot 8
  /-- Slots in use, 0..8 (R40). -/
  slotCount : Nat
  /-- The tile fetched before the last one (R41). -/
  bgA : TileLatch
  /-- The tile fetched last (R41). -/
  bgB : TileLatch
  /-- 0..261 (R42). -/
  scanline : Fin 262
  /-- 0..340 (R42). -/
  dot : Fin 341
  /-- Pixel (x, y) at index `256 y + x`, each a 6-bit color index (R43). -/
  frameBuffer : Memory 6
  /-- Completed frames (R43). -/
  frameCount : Nat
  /-- Current VRAM address, `yyy NN YYYYY XXXXX` (R44). -/
  v : Loopy
  /-- Temporary VRAM address (R45). -/
  t : Loopy
  /-- The fine-X scroll x (R46). -/
  fineX : BitVec 3
  /-- The write toggle (R47). -/
  w : Bool
  /-- The model's own field: how many pattern bytes off the address map have been drawn (R379, log 3). -/
  patternDraws : Nat
  deriving DecidableEq, Repr

/-- One line of the trace log (R424). -/
structure TraceLine where
  pc : Word
  opcode : Byte
  a : Byte
  x : Byte
  y : Byte
  sp : Byte
  status : Byte
  cycles : Nat
  deriving DecidableEq, Repr

/-- The machine (R10). -/
structure State where
  /-- Cartridge and parameters; no step changes them (R10, log 4). -/
  cfg : Config
  cpu : Cpu
  bus : Bus
  ppu : Ppu
  /-- Trace lines emitted so far, newest first (R424, log 5). -/
  trace : List TraceLine
  deriving DecidableEq, Repr

/-- The CPU group after reset, but for PC (R440). -/
def Cpu.powerOn (pc : Word) : Cpu where
  a := 0x00
  x := 0x00
  y := 0x00
  sp := 0xFD
  pc := pc
  p := 0x24
  runStatus := .running
  cycles := 7
  idleCycles := 0

/-- The bus group after reset (R440). -/
def Bus.powerOn : Bus where
  ram := []
  scratch := []
  prgRam := []
  nmiGenerated := false
  pad0 := ⟨0x00, 0⟩
  pad1 := ⟨0x00, 0⟩
  strobe := false
  dma := ⟨false, 0x00, 0, 0, .read, 0x00⟩
  clockDiv := 0
  openBusDraws := 0

/-- The PPU group after reset (R440). -/
def Ppu.powerOn : Ppu where
  ctrl := 0x00
  mask := 0x00
  status := ⟨false, false, false⟩
  oamAddr := 0x00
  readBuffer := 0x00
  vram := []
  palette := []
  oam := []
  secOam := []
  secCount := 0
  secIndex := Vector.replicate 8 0
  slots := Vector.replicate 8 ⟨0x00, 0x00, 0x00, 0x00, false⟩
  slotCount := 0
  bgA := ⟨0x00, 0x00, 0⟩
  bgB := ⟨0x00, 0x00, 0⟩
  scanline := 0
  dot := 0
  frameBuffer := []
  frameCount := 0
  v := 0
  t := 0
  fineX := 0
  w := false
  patternDraws := 0

/-- Every piece of state at the value of R440, with the program counter given (R441 step 1). -/
def State.powerOn (cfg : Config) (pc : Word) : State where
  cfg := cfg
  cpu := Cpu.powerOn pc
  bus := Bus.powerOn
  ppu := Ppu.powerOn
  trace := []

/-- The machine right after reset with no cartridge image loaded (log 1): PC is the reset vector of the blank cartridge,
the word at `$FFFC`, which is `0x0000` (R441). The state after loading an image is `State.resetWith`. -/
def State.reset : State := State.powerOn Config.blank 0x0000

end Sys2Proof.Machine
end

