-- ==== Sys2Proof/Machine/Flags.lean ====
section
/-!
DEFINITION. The processor status P (R16 to R18) and every flag computation of the instruction rules: setZN (R138), add and
subtract (R200, R201), BIT (R205), the shifts and rotates (R220 to R223), compare (47_compare.md).
-/

namespace Sys2Proof.Machine

/-- The flags of P that are live (R16): bits 4 and 5 are not flags. -/
inductive Flag where
  | carry
  | zero
  | interruptDisable
  | decimal
  | overflow
  | negative
  deriving DecidableEq, Repr

/-- `N V 1 B D I Z C` from bit 7 down to bit 0 (R16). -/
def flagBit : Flag → Nat
  | .carry => 0
  | .zero => 1
  | .interruptDisable => 2
  | .decimal => 3
  | .overflow => 6
  | .negative => 7

/-- The byte with only the flag's bit set. -/
def flagMask (f : Flag) : Byte := 1#8 <<< flagBit f

/-- `P.F`. -/
def getFlag (f : Flag) (p : Byte) : Bool := p.getLsbD (flagBit f)

/-- `P.F <- b`: one bit of P, the others kept (Notation). -/
def setFlag (f : Flag) (b : Bool) (p : Byte) : Byte := if b then p ||| flagMask f else p &&& ~~~flagMask f

/-- `setZN(v)`: `P.Z <- (v == 0); P.N <- v[7]` (R138). -/
def setZN (v p : Byte) : Byte := setFlag .negative (v.getLsbD 7) (setFlag .zero (v == 0) p)

/-- The byte that PHP and BRK push: `P | 0x30` (R18). -/
def pushedByInstruction (p : Byte) : Byte := p ||| 0x30

/-- The byte that NMI entry pushes: `(P & ~0x10) | 0x20` (R18, R410). -/
def pushedByNmi (p : Byte) : Byte := (p &&& ~~~0x10) ||| 0x20

/-- What PLP and RTI store into P from a pulled byte: `(v & ~0x10) | 0x20` (R18). -/
def pulledStatus (v : Byte) : Byte := (v &&& ~~~0x10) ||| 0x20

/-- `A + M + C`, 0..511 (R200). -/
def addSum (a m : Byte) (c : Bool) : Nat := a.toNat + m.toNat + c.toNat

/-- The result byte of ADC: the sum mod 256 (R200). -/
def addResult (a m : Byte) (c : Bool) : Byte := BitVec.ofNat 8 (addSum a m c)

/-- `C <- (s > 0xFF)` (R200). -/
def addCarry (a m : Byte) (c : Bool) : Bool := decide (addSum a m c > 0xFF)

/-- `V <- ((A xor r) and (M xor r) and 0x80) != 0` (R200). -/
def addOverflow (a m r : Byte) : Bool := ((a ^^^ r) &&& (m ^^^ r) &&& 0x80) != 0

/-- P after ADC (R200). SBC calls it with the complemented operand (R201). -/
def addFlags (a m p : Byte) : Byte :=
  let c := getFlag .carry p
  let r := addResult a m c
  setZN r (setFlag .overflow (addOverflow a m r) (setFlag .carry (addCarry a m c) p))

/-- The operand that SBC adds: `M xor 0xFF` (R201). -/
def subtrahend (m : Byte) : Byte := m ^^^ 0xFF

/-- P after BIT: `Z <- ((A and M) == 0); V <- M[6]; N <- M[7]` (R205). -/
def bitFlags (a m p : Byte) : Byte :=
  setFlag .negative (m.getLsbD 7) (setFlag .overflow (m.getLsbD 6) (setFlag .zero ((a &&& m) == 0) p))

/-- P after compare(reg, M): `C <- (reg >= M); Z <- (reg == M); N <- ((reg - M) mod 256)[7]` (47_compare.md). -/
def compareFlags (reg m p : Byte) : Byte :=
  setFlag .negative ((reg - m).getLsbD 7) (setFlag .zero (reg == m) (setFlag .carry (decide (m.toNat ≤ reg.toNat)) p))

/-- ASL: the bit shifted out, and the result with 0 shifted in (R220). -/
def shiftLeft (m : Byte) : Bool × Byte := (m.getLsbD 7, m <<< 1)

/-- LSR: the bit shifted out, and the result with 0 shifted in (R221). -/
def shiftRight (m : Byte) : Bool × Byte := (m.getLsbD 0, m >>> 1)

/-- ROL: the bit shifted out, and the result with the old C in bit 0 (R222). -/
def rotateLeft (m : Byte) (c : Bool) : Bool × Byte := (m.getLsbD 7, (m <<< 1) ||| (BitVec.ofBool c).setWidth 8)

/-- ROR: the bit shifted out, and the result with the old C in bit 7 (R223). -/
def rotateRight (m : Byte) (c : Bool) : Bool × Byte := (m.getLsbD 0, (m >>> 1) ||| ((BitVec.ofBool c).setWidth 8 <<< 7))

end Sys2Proof.Machine
end

