-- ==== Sys2Proof/Machine/Memory.lean ====
section
/-!
DEFINITION. Reading and writing the machine's memories, and their canonical form. Each memory (RAM, scratch, PRG RAM, PRG ROM,
CHR ROM, nametables, palette, OAM, secondary OAM, frame buffer) is one `Memory`; an unlisted cell reads as zero (R22, R440).
-/

namespace Sys2Proof

/-- The value of cell `i`. -/
def Memory.read {w : Nat} : Memory w → Nat → BitVec w
  | [], _ => 0
  | (k, v) :: rest, i => if k = i then v else Memory.read rest i

/-- Take cell `i` off the list, so that it reads as zero. -/
def Memory.erase {w : Nat} : Memory w → Nat → Memory w
  | [], _ => []
  | (k, v) :: rest, i => if k = i then Memory.erase rest i else (k, v) :: Memory.erase rest i

/-- List the value of cell `i`, before the first cell of a higher address. -/
def Memory.insert {w : Nat} : Memory w → Nat → BitVec w → Memory w
  | [], i, u => [(i, u)]
  | (k, v) :: rest, i, u =>
    if i < k then (i, u) :: (k, v) :: rest
    else if k = i then (i, u) :: rest
    else (k, v) :: Memory.insert rest i u

/-- Write cell `i`: writing zero takes the cell off the list. -/
def Memory.write {w : Nat} (m : Memory w) (i : Nat) (u : BitVec w) : Memory w :=
  if u = 0 then m.erase i else m.insert i u

/-- The canonical form: addresses strictly rising, no cell listed that holds zero. -/
def Memory.wf {w : Nat} : Memory w → Bool
  | [] => true
  | (k, v) :: rest => decide (v ≠ 0) && rest.all (fun cell => decide (k < cell.1)) && Memory.wf rest

/-- Every listed cell lies below `size`. -/
def Memory.fits {w : Nat} (m : Memory w) (size : Nat) : Bool := m.all fun cell => decide (cell.1 < size)

/-- The memory whose cells 0, 1, 2, … hold the given bytes. -/
def Memory.ofBytesFrom (i : Nat) : List Byte → Memory 8
  | [] => []
  | b :: rest => if b = 0 then Memory.ofBytesFrom (i + 1) rest else (i, b) :: Memory.ofBytesFrom (i + 1) rest

/-- The memory whose cells hold the given bytes, the first at cell 0. -/
def Memory.ofBytes (bytes : List Byte) : Memory 8 := Memory.ofBytesFrom 0 bytes

end Sys2Proof
end

