-- ==== Sys2Proof/Machine/Access.lean ====
section
/-!
DEFINITION. The result of a bus access or of a sequence of them: a value and the state after it, or the fault that ended the
run and the state at the fault point, which keeps every effect before it (R155, R418). And the draw of OPEN_BUS (R29).
-/

namespace Sys2Proof.Machine

/-- What a sequence of accesses comes to. -/
inductive Access (α : Type) where
  /-- It went through. -/
  | done (value : α) (s : State)
  /-- It raised `Fault(kind, info)`: nothing after it in the same rule happens (Notation). -/
  | stopped (f : Fault) (s : State)
  deriving DecidableEq, Repr

/-- Go on with the value and the state after it, unless a fault was raised. -/
def Access.andThen {α β : Type} (r : Access α) (next : α → State → Access β) : Access β :=
  match r with
  | .done value s => next value s
  | .stopped f s => .stopped f s

/-- Change the CPU group. -/
def State.mapCpu (s : State) (f : Cpu → Cpu) : State := { s with cpu := f s.cpu }

/-- Change the bus group. -/
def State.mapBus (s : State) (f : Bus → Bus) : State := { s with bus := f s.bus }

/-- Change the PPU group. -/
def State.mapPpu (s : State) (f : Ppu → Ppu) : State := { s with ppu := f s.ppu }

/-- `run_status <- Faulted(kind, info)` (R415). -/
def State.stopWith (s : State) (f : Fault) : State := s.mapCpu fun c => { c with runStatus := .faulted f }

/-- The byte that an unbacked read at this point returns: the next OPEN_BUS draw (R29, D3), a free value (log 2). -/
def openBusByte (s : State) : Byte := Config.openBus s.bus.openBusDraws

/-- Count the draw. -/
def countDraw (s : State) : State := s.mapBus fun b => { b with openBusDraws := b.openBusDraws + 1 }

/-- A read of an unbacked location: OPEN_BUS, and no side effect (R72, R310, R312, R346). -/
def openBusRead (s : State) : Access Byte := .done (openBusByte s) (countDraw s)

end Sys2Proof.Machine
end

