-- ==== Sys2Proof/Machine/PpuMemory.lean ====
section
/-!
DEFINITION. The PPU address space (R86 to R92): the 14-bit decode, nametable mirroring and palette addressing. The accesses
of `$2007`, which may present an address at `$4000` or above and then fault (R88), are in Sys2Proof/Machine/PpuPort.lean.
-/

namespace Sys2Proof.Machine

/-- `phys(table)` (R90). -/
def physicalTable (mirroring : Mirroring) (table : Nat) : Nat :=
  match mirroring with
  | .horizontal => table / 2
  | .vertical => table % 2
  | .fourScreen => table

/-- `nt_index(a)`: with `o = a & 0x0FFF`, the mirrored table `o >> 10` and the offset `o & 0x3FF` (R90). -/
def nametableIndex (mirroring : Mirroring) (a : Nat) : Nat :=
  physicalTable mirroring (a % 0x1000 / 0x400) * 0x400 + a % 0x400

/-- `pal_index(a)`: `a & 0x1F`, with `0x10`, `0x14`, `0x18` and `0x1C` falling on `0x00`, `0x04`, `0x08` and `0x0C` (R92). -/
def paletteIndex (a : Nat) : Nat :=
  if 0x10 ≤ a % 0x20 ∧ a % 4 = 0 then a % 0x20 - 0x10 else a % 0x20

/-- The bytes of nametable memory: 2 KiB, and 4 KiB under FourScreen (R36, C2). -/
def vramSize : Mirroring → Nat
  | .horizontal => 2048
  | .vertical => 2048
  | .fourScreen => 4096

/-- `PpuRead(a)` for an address of the 14-bit space (R86): CHR ROM, the nametables with their mirror at `$3000–$3EFF`
(R91), the palette. It has no side effect (R86, R96). -/
def ppuFetch (cfg : Config) (p : Ppu) (a : BitVec 14) : Byte :=
  if a.toNat < 0x2000 then cfg.chrRom.read a.toNat
  else if a.toNat < 0x3F00 then p.vram.read (nametableIndex cfg.mirroring a.toNat)
  else p.palette.read (paletteIndex a.toNat)

/-- `PpuWrite(a, d)` at `$2000–$3FFF` (R87): a nametable cell or a palette entry. -/
def ppuStore (cfg : Config) (a : BitVec 14) (d : Byte) (p : Ppu) : Ppu :=
  if a.toNat < 0x3F00 then
    { p with vram := p.vram.write (nametableIndex cfg.mirroring a.toNat) d }
  else { p with palette := p.palette.write (paletteIndex a.toNat) d }

/-- `PpuRead` of a sprite pattern address computed on integers (R379, Notation). An address of the 14-bit space is read as
any other. The spec states no value for a negative one, so that byte is a free value and one draw is counted (log 3). -/
def patternFetch (cfg : Config) (p : Ppu) (a : Int) : Byte × Ppu :=
  if 0 ≤ a then (ppuFetch cfg p (BitVec.ofInt 14 a), p)
  else (Config.offMapPattern p.patternDraws, { p with patternDraws := p.patternDraws + 1 })

end Sys2Proof.Machine
end

