-- ==== Sys2Proof/Machine/PpuPort.lean ====
section
/-!
DEFINITION. The PPU registers `$2000–$2007` as the CPU bus reaches them (51_ppu_registers.md R330 to R347).
-/

namespace Sys2Proof.Machine

/-- The eight registers of R330, by their conventional names. -/
inductive PpuReg where
  | ctrl
  | mask
  | status
  | oamAddr
  | oamData
  | scroll
  | addr
  | data
  deriving DecidableEq, Repr

/-- Register number `addr & 7` (R75, R330). -/
def ppuRegOf (n : Nat) : PpuReg :=
  match n % 8 with
  | 0 => .ctrl
  | 1 => .mask
  | 2 => .status
  | 3 => .oamAddr
  | 4 => .oamData
  | 5 => .scroll
  | 6 => .addr
  | _ => .data

/-- The status byte's three stored bits in their places, bits 4..0 zero (R33). -/
def statusBits (st : PpuStatus) : Byte :=
  (if st.vblank then 0x80 else 0) ||| (if st.sprite0Hit then 0x40 else 0) ||| (if st.spriteOverflow then 0x20 else 0)

/-- Read `$2002` (R333): the stored bits over OPEN_BUS bits; VBlank and w are cleared. -/
def readStatus (s : State) : Access Byte :=
  .done (statusBits s.ppu.status ||| (openBusByte s &&& 0x1F))
    ((countDraw s).mapPpu fun p => { p with status := { p.status with vblank := false }, w := false })

/-- `v_increment()` (R344). -/
def vIncrement (p : Ppu) : Ppu := { p with v := p.v + (if p.ctrl.getLsbD 2 then 32 else 1) }

/-- Read `$2007` (R342). -/
def readData (s : State) : Access Byte :=
  let a := s.ppu.v
  if 0x4000 ≤ a.toNat then .stopped (.ppuAddressOutOfRange a) s
  else
    let fetched := ppuFetch s.cfg s.ppu (a.setWidth 14)
    if a.toNat < 0x3F00 then
      .done s.ppu.readBuffer (s.mapPpu fun p => vIncrement { p with readBuffer := fetched })
    else
      .done fetched (s.mapPpu fun p => vIncrement { p with readBuffer := ppuFetch s.cfg s.ppu ((a - 0x1000).setWidth 14) })

/-- A CPU read of a PPU register (R330). -/
def ppuRegRead (r : PpuReg) (s : State) : Access Byte :=
  match r with
  | .mask => .done s.ppu.mask s
  | .status => readStatus s
  | .oamData => .done (s.ppu.oam.read s.ppu.oamAddr.toNat) s
  | .data => readData s
  | .ctrl => openBusRead s
  | .oamAddr => openBusRead s
  | .scroll => openBusRead s
  | .addr => openBusRead s

/-- Write `$2000` (R331). -/
def writeCtrl (d : Byte) (p : Ppu) : Ppu :=
  { p with
    ctrl := d
    t := (p.t &&& ~~~(0x0C00 : Loopy)) ||| ((d &&& 3).setWidth 15 <<< 10) }

/-- Write `oam[oam_addr]` and advance `oam_addr` (R336; the DMA's write cycle, R307). -/
def writeOam (d : Byte) (p : Ppu) : Ppu :=
  { p with oam := p.oam.write p.oamAddr.toNat d, oamAddr := p.oamAddr + 1 }

/-- Write `$2005` (R338 with w = 0, R339 with w = 1). -/
def writeScroll (d : Byte) (p : Ppu) : Ppu :=
  if p.w then
    { p with
      t := (p.t &&& ~~~(0x73E0 : Loopy)) ||| ((d &&& 7).setWidth 15 <<< 12) ||| ((d >>> 3).setWidth 15 <<< 5)
      w := false }
  else
    { p with
      t := (p.t &&& ~~~(0x001F : Loopy)) ||| (d >>> 3).setWidth 15
      fineX := d.setWidth 3
      w := true }

/-- Write `$2006` (R340 with w = 0, R341 with w = 1). -/
def writeAddr (d : Byte) (p : Ppu) : Ppu :=
  if p.w then
    let t := (p.t &&& 0x7F00) ||| d.setWidth 15
    { p with t := t, v := t, w := false }
  else { p with t := (p.t &&& 0x00FF) ||| ((d &&& 0x3F).setWidth 15 <<< 8), w := true }

/-- Write `$2007` (R343, with the faults of R87 to R89). On a fault v is not incremented. -/
def writeData (d : Byte) (s : State) : Access Unit :=
  let a := s.ppu.v
  if a.toNat < 0x2000 then .stopped (.chrRomWrite a) s
  else if 0x4000 ≤ a.toNat then .stopped (.ppuAddressOutOfRange a) s
  else .done () (s.mapPpu fun p => vIncrement (ppuStore s.cfg (a.setWidth 14) d p))

/-- A CPU write to a PPU register (R330). A write to `$2002` is ignored (R334); none raises an NMI (R347). -/
def ppuRegWrite (r : PpuReg) (d : Byte) (s : State) : Access Unit :=
  match r with
  | .ctrl => .done () (s.mapPpu (writeCtrl d))
  | .mask => .done () (s.mapPpu fun p => { p with mask := d })
  | .status => .done () s
  | .oamAddr => .done () (s.mapPpu fun p => { p with oamAddr := d })
  | .oamData => .done () (s.mapPpu (writeOam d))
  | .scroll => .done () (s.mapPpu (writeScroll d))
  | .addr => .done () (s.mapPpu (writeAddr d))
  | .data => writeData d s

end Sys2Proof.Machine
end

