-- ==== Sys2Proof/Machine/Ops.lean ====
section
/-!
DEFINITION. The named operations of the CPU and the bus: the address decode with MemRead and MemWrite (R71 to R85), the
controllers (R300 to R304), OAM DMA (R305 to R309), the 16-bit reads (R82, R83), the stack (R137), taking an interrupt and
returning from one (R268, R269, R410), and how an instruction ends (R133 to R135, R155).
-/

namespace Sys2Proof.Machine

/-! ### The CPU address decode -/

/-- Where a CPU address falls (R72, R73), with its index in the region. -/
inductive Region where
  | ram (i : Nat)
  | ppu (r : PpuReg)
  | stub
  | oamDma
  | pad0
  | pad1
  | scratch (i : Nat)
  | prgRam (i : Nat)
  | prgRom (i : Nat)
  deriving DecidableEq, Repr

/-- The one region of an address (R71 to R79). -/
def regionOf (cfg : Config) (a : Word) : Region :=
  let n := a.toNat
  if n < 0x2000 then .ram (n % 0x0800)
  else if n < 0x4000 then .ppu (ppuRegOf n)
  else if n = 0x4014 then .oamDma
  else if n = 0x4016 then .pad0
  else if n = 0x4017 then .pad1
  else if n < 0x4020 then .stub
  else if n < 0x6000 then .scratch (n - 0x4020)
  else if n < 0x8000 then .prgRam (n - 0x6000)
  else .prgRom ((n - 0x8000) % cfg.prgSize.bytes)

/-! ### Controllers -/

/-- The value of a controller read: `0x40 | ((buttons >> cursor) & 1)` (R300). -/
def padValue (pad : Pad) : Byte := 0x40 ||| ((pad.buttons >>> pad.cursor.toNat) &&& 1)

/-- The cursor after a controller read: it advances with strobe off, up to 7 (R300). -/
def padAdvance (strobe : Bool) (pad : Pad) : Pad :=
  if !strobe && decide (pad.cursor.toNat < 7) then { pad with cursor := pad.cursor + 1 } else pad

/-- A write of d to `$4016` (R301): odd arms the strobe and zeroes both cursors, even disarms it. -/
def writeStrobe (d : Byte) (b : Bus) : Bus :=
  if d.getLsbD 0 then
    { b with strobe := true, pad0 := { b.pad0 with cursor := 0 }, pad1 := { b.pad1 with cursor := 0 } }
  else { b with strobe := false }

/-! ### Starting OAM DMA -/

/-- A write of d to `$4014` (R305, R306): the engine starts and the CPU owes 513 cycles, one more on an odd cycle count. -/
def startDma (d : Byte) (s : State) : State :=
  let odd := s.cpu.cycles % 2
  (s.mapBus fun b => { b with dma := { b.dma with active := true, page := d, count := 0, align := 1 + odd, phase := .read } }).mapCpu
    fun c => { c with idleCycles := c.idleCycles + (513 + odd) }

/-! ### MemRead and MemWrite -/

/-- `MemRead(addr, 1)` (R72). -/
def memRead (a : Word) (s : State) : Access Byte :=
  match regionOf s.cfg a with
  | .ram i => .done (s.bus.ram.read i) s
  | .ppu r => ppuRegRead r s
  | .stub => openBusRead s
  | .oamDma => openBusRead s
  | .pad0 => .done (padValue s.bus.pad0) (s.mapBus fun b => { b with pad0 := padAdvance b.strobe b.pad0 })
  | .pad1 => .done (padValue s.bus.pad1) (s.mapBus fun b => { b with pad1 := padAdvance b.strobe b.pad1 })
  | .scratch i => .done (s.bus.scratch.read i) s
  | .prgRam i => .done (s.bus.prgRam.read i) s
  | .prgRom i => .done (s.cfg.prgRom.read i) s

/-- `MemWrite(addr, 1, v)` (R73). -/
def memWrite (a : Word) (d : Byte) (s : State) : Access Unit :=
  match regionOf s.cfg a with
  | .ram i => .done () (s.mapBus fun b => { b with ram := b.ram.write i d })
  | .ppu r => ppuRegWrite r d s
  | .stub => .done () s
  | .oamDma => .done () (startDma d s)
  | .pad0 => .done () (s.mapBus (writeStrobe d))
  | .pad1 => .done () s
  | .scratch i => .done () (s.mapBus fun b => { b with scratch := b.scratch.write i d })
  | .prgRam i => .done () (s.mapBus fun b => { b with prgRam := b.prgRam.write i d })
  | .prgRom _ => .stopped (.prgRomWrite a) s

/-- `read16(a)` (R82): low byte first, the second address mod 65536. -/
def read16 (a : Word) (s : State) : Access Word :=
  (memRead a s).andThen fun lo s1 => (memRead (a + 1) s1).andThen fun hi s2 => .done (wordOf lo hi) s2

/-- `(a & 0xFF00) | ((a + 1) & 0x00FF)`: the next address in the same page (R83). -/
def nextInPage (a : Word) : Word := (a &&& 0xFF00) ||| ((a + 1) &&& 0x00FF)

/-- `read16_wrap(a)` (R83). -/
def read16Wrap (a : Word) (s : State) : Access Word :=
  (memRead a s).andThen fun lo s1 => (memRead (nextInPage a) s1).andThen fun hi s2 => .done (wordOf lo hi) s2

/-- The PRG ROM byte at a CPU address of `$8000–$FFFF` (R79). -/
def prgRomByte (cfg : Config) (a : Word) : Byte := cfg.prgRom.read ((a.toNat - 0x8000) % cfg.prgSize.bytes)

/-- A vector: `read16` of an address in PRG ROM, whose reads have no side effect (R81). -/
def vectorAt (cfg : Config) (a : Word) : Word := wordOf (prgRomByte cfg a) (prgRomByte cfg (a + 1))

/-! ### The stack -/

/-- The RAM index of `$0100 | SP`: page 1 is CPU RAM (R14, R72, R74). -/
def stackIndex (sp : Byte) : Nat := 0x100 + sp.toNat

/-- `push(v)` (R137): the write goes to RAM page 1, so it never faults. -/
def push (d : Byte) (s : State) : State :=
  (s.mapBus fun b => { b with ram := b.ram.write (stackIndex s.cpu.sp) d }).mapCpu fun c => { c with sp := c.sp - 1 }

/-- A 16-bit push: the high byte, then the low byte (R137). -/
def pushWord (w : Word) (s : State) : State := push (loByte w) (push (hiByte w) s)

/-- The byte that `pull()` returns (R137). -/
def pulledByte (s : State) : Byte := s.bus.ram.read (stackIndex (s.cpu.sp + 1))

/-- The state after `pull()` (R137). -/
def afterPull (s : State) : State := s.mapCpu fun c => { c with sp := c.sp + 1 }

/-- A 16-bit pull: the low byte, then the high byte (R137). -/
def pulledWord (s : State) : Word := wordOf (pulledByte s) (pulledByte (afterPull s))

/-! ### Taking an interrupt and returning from one -/

/-- The CPU owes so many more idle cycles (R135, R410). -/
def charge (idle : Nat) (s : State) : State := s.mapCpu fun c => { c with idleCycles := c.idleCycles + idle }

/-- What BRK in Vector mode and NMI entry share (R268, R410): push the return address and a status byte, set I, and load PC
from a vector. -/
def takeInterrupt (ret : Word) (status : Byte) (vector : Word) (s : State) : State :=
  (push status (pushWord ret s)).mapCpu fun c =>
    { c with p := setFlag .interruptDisable true c.p, pc := vectorAt s.cfg vector }

/-- `nmi_entry()` (R410). -/
def nmiEntry (s : State) : State :=
  charge 7
    (takeInterrupt s.cpu.pc (pushedByNmi s.cpu.p) 0xFFFA (s.mapBus fun b => { b with nmiGenerated := false }))

/-- The return of RTI (R269, R414): P from the stack with bit 4 clear and bit 5 set, then PC. -/
def returnFromInterrupt (s : State) : State :=
  let s1 := (afterPull s).mapCpu fun c => { c with p := pulledStatus (pulledByte s) }
  (afterPull (afterPull s1)).mapCpu fun c => { c with pc := pulledWord s1 }

/-! ### How an instruction ends -/

/-- PC takes its next value and the instruction's remaining cycles are owed (R133 to R135). -/
def retire (pc : Word) (idle : Nat) (s : State) : State := charge idle (s.mapCpu fun c => { c with pc := pc })

/-- PC advances past the instruction: `(PC + length) mod 65536` (R134). -/
def advance (len : Word) (idle : Nat) (s : State) : State := retire (s.cpu.pc + len) idle s

/-- The outcome of an instruction: its last state, or the state at the fault point with `run_status` Faulted (R155, R415). -/
def settle (r : Access Unit) : Host.Outcome State Fault Refusal :=
  match r with
  | .done _ s => .next s
  | .stopped f s => .next (s.stopWith f)

/-! ### One DMA cycle -/

/-- `dma_cycle()` (R307): an alignment cycle, a read cycle or a write cycle. -/
def dmaCycle (s : State) : Access Unit :=
  let dma := s.bus.dma
  if 0 < dma.align then .done () (s.mapBus fun b => { b with dma := { b.dma with align := b.dma.align - 1 } })
  else
    match dma.phase with
    | .read =>
      (memRead (wordOf 0 dma.page ||| BitVec.ofNat 16 dma.count) s).andThen fun byte s1 =>
        .done () (s1.mapBus fun b => { b with dma := { b.dma with latch := byte, phase := .write } })
    | .write =>
      .done ()
        ((s.mapPpu (writeOam dma.latch)).mapBus fun b =>
          { b with
            dma :=
              { b.dma with
                count := b.dma.count + 1
                phase := .read
                active := b.dma.active && decide (b.dma.count + 1 ≠ 256) } })

end Sys2Proof.Machine
end

