-- ==== Sys2Proof/Machine/Rendering.lean ====
section
/-!
DEFINITION. The PPU's dot (52_ppu_rendering.md R360 to R388): frame timing, background fetches and scroll increments, sprite
evaluation and fetch, pixel composition, sprite-0 hit, VBlank, and the frame's RGB form. Every function is a function of the
configuration and the PPU group alone: rendering reads and writes nothing else (R96, R388).
-/

namespace Sys2Proof.Machine

/-- A visible scanline: 0–239 (R362). -/
def isVisible (line : Nat) : Bool := decide (line ≤ 239)

/-- `render_enabled()` (R363). -/
def renderEnabled (cfg : Config) (p : Ppu) : Bool :=
  match cfg.maskGating with
  | .hardware => p.mask.getLsbD 3 || p.mask.getLsbD 4
  | .ignored => true

/-- `show_bg(x)` (R374). -/
def showBackground (cfg : Config) (p : Ppu) (x : Nat) : Bool :=
  match cfg.maskGating with
  | .hardware => p.mask.getLsbD 3 && (decide (8 ≤ x) || p.mask.getLsbD 1)
  | .ignored => true

/-- `show_sp(x)` (R374). -/
def showSprites (cfg : Config) (p : Ppu) (x : Nat) : Bool :=
  match cfg.maskGating with
  | .hardware => p.mask.getLsbD 4 && (decide (8 ≤ x) || p.mask.getLsbD 2)
  | .ignored => true

/-! ### Scroll registers -/

/-- `coarse_x_increment()` (R369): at 31, to 0 with nametable bit 0 toggled. -/
def coarseXIncrement (v : Loopy) : Loopy :=
  if v &&& 0x001F = 0x001F then (v &&& ~~~0x001F) ^^^ 0x0400 else v + 1

/-- `y_increment()` (R370): fine Y, then coarse Y, which toggles nametable bit 1 after 29 and wraps silently after 31. -/
def yIncrement (v : Loopy) : Loopy :=
  if v &&& 0x7000 ≠ 0x7000 then v + 0x1000
  else
    let v0 := v &&& ~~~0x7000
    if v0 &&& 0x03E0 = 0x03A0 then (v0 &&& ~~~0x03E0) ^^^ 0x0800
    else if v0 &&& 0x03E0 = 0x03E0 then v0 &&& ~~~0x03E0
    else v0 + 0x0020

/-- `copy_horizontal()` (R371). -/
def copyHorizontal (t v : Loopy) : Loopy := (v &&& ~~~0x041F) ||| (t &&& 0x041F)

/-- `copy_vertical()` (R372). -/
def copyVertical (t v : Loopy) : Loopy := (v &&& ~~~0x7BE0) ||| (t &&& 0x7BE0)

/-! ### Background -/

/-- Coarse X, `v[4:0]` (R44). -/
def coarseX (v : Loopy) : Nat := v.toNat % 32

/-- Coarse Y, `v[9:5]` (R44). -/
def coarseY (v : Loopy) : Nat := v.toNat / 32 % 32

/-- Fine Y, `v[14:12]` (R44). -/
def fineY (v : Loopy) : Nat := v.toNat / 4096

/-- The address of the nametable byte: `0x2000 | (v and 0x0FFF)` (R367). -/
def tileAddress (v : Loopy) : BitVec 14 := (0x2000 ||| (v &&& 0x0FFF)).setWidth 14

/-- The address of the attribute byte (R367). -/
def attributeAddress (v : Loopy) : BitVec 14 :=
  (0x23C0 ||| (v &&& 0x0C00) ||| ((v >>> 4) &&& 0x38) ||| ((v >>> 2) &&& 0x07)).setWidth 14

/-- The palette that an attribute byte selects: `(attr >> (((cy and 2) << 1) | (cx and 2))) and 3` (R367, R368). -/
def attributePalette (attr : Byte) (v : Loopy) : BitVec 2 :=
  (attr >>> (((coarseY v &&& 2) <<< 1) ||| (coarseX v &&& 2))).setWidth 2

/-- A pattern table's base, from a control bit: 0 or `0x1000` (R31). -/
def patternBank (bit : Bool) : Nat := if bit then 0x1000 else 0

/-- `fetch_tile()` (R367). -/
def fetchTile (cfg : Config) (p : Ppu) : Ppu :=
  let tile := ppuFetch cfg p (tileAddress p.v)
  let attr := ppuFetch cfg p (attributeAddress p.v)
  let row := patternBank (p.ctrl.getLsbD 4) + tile.toNat * 16 + fineY p.v
  { p with
    bgA := p.bgB
    bgB :=
      { patLo := ppuFetch cfg p (BitVec.ofNat 14 row)
        patHi := ppuFetch cfg p (BitVec.ofNat 14 (row + 8))
        pal := attributePalette attr p.v } }

/-- A 2-bit pixel from the two planes: the high plane gives bit 1 (R373, R381). -/
def planePixel (hi lo : Byte) (bit : Nat) : BitVec 2 :=
  BitVec.ofBool (hi.getLsbD bit) ++ BitVec.ofBool (lo.getLsbD bit)

/-- The tile latch that output pixel x falls on (R373). -/
def backgroundTile (p : Ppu) (x : Nat) : TileLatch := if x % 8 + p.fineX.toNat < 8 then p.bgA else p.bgB

/-- `bg` of R373: the background's 2-bit value at output pixel x, 0 where the layer is hidden. -/
def backgroundPixel (cfg : Config) (p : Ppu) (x : Nat) : BitVec 2 :=
  if showBackground cfg p x then
    planePixel (backgroundTile p x).patHi (backgroundTile p x).patLo (7 - (x % 8 + p.fineX.toNat) % 8)
  else 0

/-! ### Sprites -/

/-- Sprite height: `16 if ctrl[5] = 1 else 8` (R376, R378). -/
def spriteHeight (p : Ppu) : Nat := if p.ctrl.getLsbD 5 then 16 else 8

/-- Sprite i of primary OAM is in range on line s: `0 <= s - y < h` (R376). -/
def inRange (p : Ppu) (line i : Nat) : Bool :=
  let y := (p.oam.read (4 * i)).toNat
  decide (y ≤ line) && decide (line - y < spriteHeight p)

/-- The OAM indices in range on line s, lowest first (R376). -/
def spritesInRange (p : Ppu) (line : Nat) : List Nat := (List.range 64).filter (inRange p line)

/-- Copy sprite i's four OAM bytes into place n of secondary OAM, and remember i (R376). -/
def copySprite (p : Ppu) (place : Nat × Nat) : Ppu :=
  let i := place.1
  let n := place.2
  { p with
    secOam :=
      (((p.secOam.write (4 * n) (p.oam.read (4 * i))).write (4 * n + 1) (p.oam.read (4 * i + 1))).write (4 * n + 2)
        (p.oam.read (4 * i + 2))).write (4 * n + 3) (p.oam.read (4 * i + 3))
    secIndex := p.secIndex.setIfInBounds n (BitVec.ofNat 6 i) }

/-- `evaluate_sprites(s)` (R376): the first eight sprites in range are copied; a ninth sets the overflow flag (R377). -/
def evaluateSprites (p : Ppu) (line : Nat) : Ppu :=
  let found := spritesInRange p line
  let copied := (found.take 8).zipIdx.foldl copySprite p
  { copied with
    secCount := (found.take 8).length
    status := { p.status with spriteOverflow := p.status.spriteOverflow || decide (8 < found.length) } }

/-- The secondary-OAM clear (R375). -/
def clearSecondaryOam (p : Ppu) : Ppu :=
  { p with
    secOam := (List.range 32).map fun i => (i, 0xFF)
    secCount := 0 }

/-- `bitreverse8` (R379). -/
def reverseByte (b : Byte) : Byte := b.reverse

/-- The pattern address of sprite slot k on line s, on integers: `row <- s - y`, flipped vertically by attribute bit 7
across the full height, then the 8×8 or the 8×16 form (R378, R379). -/
def spritePatternAddress (p : Ppu) (line : Nat) (y tile attr : Byte) : Int :=
  let h : Int := spriteHeight p
  let row0 : Int := (line : Int) - (y.toNat : Int)
  let row : Int := if attr.getLsbD 7 then h - 1 - row0 else row0
  if p.ctrl.getLsbD 5 then
    let top : Int := (tile &&& 0xFE).toNat
    let bank : Int := patternBank (tile.getLsbD 0)
    if 8 ≤ row then bank + (top + 1) * 16 + (row - 8) else bank + top * 16 + row
  else (patternBank (p.ctrl.getLsbD 3) : Int) + (tile.toNat : Int) * 16 + row

/-- Load slot k for the line after s, from place k of secondary OAM (R379). -/
def loadSlot (cfg : Config) (line : Nat) (p : Ppu) (k : Nat) : Ppu :=
  let attr := p.secOam.read (4 * k + 2)
  let addr := spritePatternAddress p line (p.secOam.read (4 * k)) (p.secOam.read (4 * k + 1)) attr
  let lo := patternFetch cfg p addr
  let hi := patternFetch cfg lo.2 (addr + 8)
  let flip : Byte → Byte := fun b => if attr.getLsbD 6 then reverseByte b else b
  { hi.2 with
    slots :=
      hi.2.slots.setIfInBounds k
        { x := p.secOam.read (4 * k + 3)
          attr := attr
          patLo := flip lo.1
          patHi := flip hi.1
          isSprite0 := p.secIndex.toList.getD k 0 == 0 } }

/-- `load_sprite_slots(s)` (R379). -/
def loadSpriteSlots (cfg : Config) (p : Ppu) (line : Nat) : Ppu :=
  let loaded := (List.range p.secCount).foldl (loadSlot cfg line) p
  { loaded with slotCount := p.secCount }

/-- A slot's 2-bit value at output pixel x: 0 outside its eight columns (R381). -/
def slotPixel (x : Nat) (slot : Slot) : BitVec 2 :=
  if slot.x.toNat ≤ x ∧ x - slot.x.toNat ≤ 7 then planePixel slot.patHi slot.patLo (7 - (x - slot.x.toNat)) else 0

/-- The slots whose pixel at x is opaque, in slot order; none where sprites are hidden (R381, R374). -/
def opaqueSlots (cfg : Config) (p : Ppu) (x : Nat) : List Slot :=
  if showSprites cfg p x then (p.slots.toList.take p.slotCount).filter fun slot => slotPixel x slot != 0 else []

/-! ### Output -/

/-- The address of a palette entry: base, four per palette, the 2-bit value (R382). -/
def paletteAddress (base : BitVec 14) (palette value : BitVec 2) : BitVec 14 :=
  base + palette.setWidth 14 * 4 + value.setWidth 14

/-- The palette address of the composed pixel x (R382): the first opaque sprite, unless it is behind an opaque background;
then the background; then the universal background. -/
def composedAddress (cfg : Config) (p : Ppu) (x : Nat) : BitVec 14 :=
  let bg := backgroundPixel cfg p x
  let background := if bg != 0 then paletteAddress 0x3F00 (backgroundTile p x).pal bg else 0x3F00
  match opaqueSlots cfg p x with
  | [] => background
  | slot :: _ =>
    if bg == 0 || !slot.attr.getLsbD 5 then paletteAddress 0x3F10 (slot.attr.setWidth 2) (slotPixel x slot) else background

/-- Sprite-0 hit at pixel x: an opaque pixel of the slot that holds sprite 0 over an opaque background (R383). -/
def sprite0HitAt (cfg : Config) (p : Ppu) (x : Nat) : Bool :=
  backgroundPixel cfg p x != 0 && (opaqueSlots cfg p x).any fun slot => slot.isSprite0

/-- The output color of a palette address: bits 5..0, and greyscale under Hardware gating (R384). -/
def outputColor (cfg : Config) (p : Ppu) (a : BitVec 14) : BitVec 6 :=
  let c := (ppuFetch cfg p a).setWidth 6
  if cfg.maskGating = .hardware && p.mask.getLsbD 0 then c &&& 0x30 else c

/-- Output pixel x of line s (R373 to R385): the composed color and the sprite-0 test with rendering enabled, the backdrop
with rendering disabled. -/
def outputPixel (cfg : Config) (p : Ppu) (line x : Nat) : Ppu :=
  if renderEnabled cfg p then
    { p with
      frameBuffer := p.frameBuffer.write (256 * line + x) (outputColor cfg p (composedAddress cfg p x))
      status := { p.status with sprite0Hit := p.status.sprite0Hit || sprite0HitAt cfg p x } }
  else { p with frameBuffer := p.frameBuffer.write (256 * line + x) (outputColor cfg p 0x3F00) }

/-! ### The dot -/

/-- The dots of tile fetches (R361, R366). -/
def isFetchDot (d : Nat) : Bool := decide (8 ≤ d ∧ d ≤ 256 ∧ d % 8 = 0) || decide (d = 328) || decide (d = 336)

/-- Step 4a of R361: the secondary-OAM clear at dot 64 of a visible line (R375). -/
def clearWork (s d : Nat) (p : Ppu) : Ppu := if isVisible s && d == 64 then clearSecondaryOam p else p

/-- Step 4b of R361: a tile fetch, then a coarse-X increment (R367, R369). -/
def tileWork (cfg : Config) (d : Nat) (p : Ppu) : Ppu :=
  if isFetchDot d then { fetchTile cfg p with v := coarseXIncrement p.v } else p

/-- Step 4c of R361, at dot 256: the Y increment (R370), then on a visible line the sprite evaluation (R376). -/
def lineWork (s d : Nat) (p : Ppu) : Ppu :=
  if d == 256 then
    if isVisible s then evaluateSprites { p with v := yIncrement p.v } s else { p with v := yIncrement p.v }
  else p

/-- Step 4d of R361: the horizontal copy at dot 257 (R371). -/
def horizontalWork (d : Nat) (p : Ppu) : Ppu := if d == 257 then { p with v := copyHorizontal p.t p.v } else p

/-- Step 4e of R361: the vertical copy at dots 280–304 of the pre-render line (R372). -/
def verticalWork (s d : Nat) (p : Ppu) : Ppu :=
  if s == 261 && decide (280 ≤ d) && decide (d ≤ 304) then { p with v := copyVertical p.t p.v } else p

/-- Step 4f of R361, at dot 320: the slot load on a visible line, no slot on the pre-render line (R379, R380). -/
def spriteWork (cfg : Config) (s d : Nat) (p : Ppu) : Ppu :=
  if d == 320 then if isVisible s then loadSpriteSlots cfg p s else { p with slotCount := 0 } else p

/-- Step 4 of R361, on a visible or the pre-render line with rendering enabled. -/
def renderWork (cfg : Config) (p : Ppu) (s d : Nat) : Ppu :=
  spriteWork cfg s d (verticalWork s d (horizontalWork d (lineWork s d (tileWork cfg d (clearWork s d p)))))

/-- Step 1 of R361: output pixel d − 1 of a visible line. -/
def pixelWork (cfg : Config) (s d : Nat) (p : Ppu) : Ppu :=
  if isVisible s && decide (1 ≤ d) && decide (d ≤ 256) then outputPixel cfg p s (d - 1) else p

/-- Steps 2 and 3 of R361: the status events of R364 and R365, but for the NMI flag. -/
def statusWork (s d : Nat) (p : Ppu) : Ppu :=
  if s == 241 && d == 1 then { p with status := { p.status with vblank := true } }
  else if s == 261 && d == 1 then { p with status := ⟨false, false, false⟩ }
  else p

/-- `ppu_dot(s, d)` (R361), but for the NMI flag, which is bus state (`raisesNmi`). -/
def dotWork (cfg : Config) (p : Ppu) (s d : Nat) : Ppu :=
  let q := statusWork s d (pixelWork cfg s d p)
  if (isVisible s || s == 261) && renderEnabled cfg q then renderWork cfg q s d else q

/-- The dot at hand raises the NMI: scanline 241 dot 1 with `ctrl[7] = 1` (R364). -/
def raisesNmi (p : Ppu) : Bool := decide (p.scanline.val = 241) && decide (p.dot.val = 1) && p.ctrl.getLsbD 7

/-- `ppu_advance()` (R360). The frame is emitted at the wrap: it is then `frameBuffer`, and `frameCount` grows (R386). -/
def ppuAdvance (p : Ppu) : Ppu :=
  { p with
    dot := p.dot + 1
    scanline := if p.dot.val = 340 then p.scanline + 1 else p.scanline
    frameCount := if p.dot.val = 340 ∧ p.scanline.val = 261 then p.frameCount + 1 else p.frameCount }

/-- One PPU step: the work of the dot at hand, then the advance (R360, R420). -/
def ppuStep (cfg : Config) (p : Ppu) : Ppu := ppuAdvance (dotWork cfg p p.scanline.val p.dot.val)

/-! ### The emitted frame -/

/-- The three bytes of pixel (x, y): `SYSTEM_PALETTE[frame_buffer[y][x]]` (R386). -/
def pixelRgb (p : Ppu) (x y : Nat) : List Byte :=
  let rgb := Config.systemPalette (p.frameBuffer.read (256 * y + x))
  [rgb.1, rgb.2.1, rgb.2.2]

/-- The emitted frame: a 256 × 240 × 3 buffer in row-major order, three bytes per pixel (R386). -/
def frameRgb (p : Ppu) : List Byte :=
  (List.range 240).flatMap fun y => (List.range 256).flatMap fun x => pixelRgb p x y

end Sys2Proof.Machine
end

