-- ==== Sys2Proof/Machine/HostPort.lean ====
section
/-!
DEFINITION. The machine as its host reaches it (R425): loading a cartridge image (R30, R429), reset (R441) and the nestest
override (R442), the controller inputs (R304), the emitted frame (R386), the trace line's text (R424), and placing an
instruction for the next fetch, as a load does.
-/

namespace Sys2Proof.Machine

/-! ### Load -/

/-- Why a cartridge image is refused (R30, R429). The core then does not start. -/
inductive LoadError where
  | badTag
  | badControl
  | badMapper
  | badPrgSize
  | badChrSize
  | truncated
  deriving DecidableEq, Repr

/-- Header byte k of an image. -/
def headerByte (image : List Byte) (k : Nat) : Byte := image.getD k 0

/-- `(hdr[7] & 0xF0) | (hdr[6] >> 4)` (R30). -/
def mapperOf (image : List Byte) : Byte := (headerByte image 7 &&& 0xF0) ||| (headerByte image 6 >>> 4)

/-- FourScreen if byte 6 bit 3 = 1, else Vertical if byte 6 bit 0 = 1, else Horizontal (R30). -/
def mirroringOf (image : List Byte) : Mirroring :=
  if (headerByte image 6).getLsbD 3 then .fourScreen
  else if (headerByte image 6).getLsbD 0 then .vertical
  else .horizontal

/-- `hdr[4]` banks of 16 KiB: one or two (R30, D20). -/
def prgSizeOf (image : List Byte) : Option PrgSize :=
  if headerByte image 4 = 1 then some .kib16 else if headerByte image 4 = 2 then some .kib32 else none

/-- Where the PRG bytes begin: after the header and a 512-byte trainer if byte 6 bit 2 is set (R30). -/
def prgStart (image : List Byte) : Nat := if (headerByte image 6).getLsbD 2 then 16 + 512 else 16

/-- CHR ROM is exactly 8 KiB (R6, R30, D21). -/
def chrSize : Nat := 8192

/-- `load(cartridge image)` (R425, R429), with the parameters of R6. The order in which several refusals are tested is the
model's (log 8). -/
def loadCartridge (brkMode : BrkMode) (maskGating : MaskGating) (image : List Byte) : Except LoadError Config :=
  if image.take 4 ≠ [0x4E, 0x45, 0x53, 0x1A] then .error .badTag
  else if image.length < 16 then .error .truncated
  else if headerByte image 7 &&& 0x0F ≠ 0 then .error .badControl
  else if mapperOf image ≠ 0 then .error .badMapper
  else
    match prgSizeOf image with
    | none => .error .badPrgSize
    | some size =>
      if headerByte image 5 ≠ 1 then .error .badChrSize
      else if image.length < prgStart image + size.bytes + chrSize then .error .truncated
      else
        .ok
          { brkMode := brkMode
            maskGating := maskGating
            mirroring := mirroringOf image
            prgSize := size
            prgRom := Memory.ofBytes ((image.drop (prgStart image)).take size.bytes)
            chrRom := Memory.ofBytes ((image.drop (prgStart image + size.bytes)).take chrSize) }

/-! ### Reset -/

/-- The reset after a successful load (R441): every state at its value of R440, `PC <- read16(0xFFFC)` from PRG ROM. -/
def State.resetWith (cfg : Config) : State := State.powerOn cfg (vectorAt cfg 0xFFFC)

/-- The nestest boot override, applied after reset (R442). -/
def State.nestestBoot (s : State) : State :=
  s.mapCpu fun c => { c with pc := 0xC000, sp := 0xFD, p := 0x24, cycles := 7 }

/-! ### Inputs and outputs -/

/-- A frame boundary: the next dot is (0, 0) (R386, R425). -/
def atFrameBoundary (s : State) : Bool := decide (s.ppu.scanline.val = 0) && decide (s.ppu.dot.val = 0)

/-- `set_buttons(p, byte)` (R304, R425): port 1 when `second` holds, else port 0. It is refused off a frame boundary (log 9),
and changes neither cursor nor strobe. DESIGN CHOICE (log 14), safe: `runStatus` is not tested, so a stopped machine's button
bytes change too; R425 and R428 do not say. -/
def setButtons (second : Bool) (buttons : Byte) (s : State) : Option State :=
  if atFrameBoundary s then
    some (s.mapBus fun b =>
      if second then { b with pad1 := { b.pad1 with buttons := buttons } }
      else { b with pad0 := { b.pad0 with buttons := buttons } })
  else none

/-- The frame that the host takes at a frame boundary, once one is complete (R386, R425). -/
def takeFrame (s : State) : Option (List Byte) :=
  if atFrameBoundary s && decide (0 < s.ppu.frameCount) then some (frameRgb s.ppu) else none

/-- Hexadecimal digits, as the trace line shows them (R424: no fixed width or case). -/
def hexText (n : Nat) : String := String.ofList ((Nat.toDigits 16 n).map Char.toUpper)

/-- The text of a trace line (R424). -/
def traceText (t : TraceLine) : String :=
  "pc: 0x" ++ hexText t.pc.toNat ++ " opcode: 0x" ++ hexText t.opcode.toNat ++ " A: 0x" ++ hexText t.a.toNat ++
    ", X: 0x" ++ hexText t.x.toNat ++ ", Y: 0x" ++ hexText t.y.toNat ++ ", SP: 0x" ++ hexText t.sp.toNat ++
    ", Status: 0x" ++ hexText t.status.toNat ++ ", Cycles: " ++ toString t.cycles

/-! ### Plain memory, and placing an instruction -/

/-- The byte at an address whose reads have no side effect and are not OPEN_BUS: RAM, scratch, PRG RAM, PRG ROM (R85). -/
def peek (s : State) (a : Word) : Option Byte :=
  match regionOf s.cfg a with
  | .ram i => some (s.bus.ram.read i)
  | .scratch i => some (s.bus.scratch.read i)
  | .prgRam i => some (s.bus.prgRam.read i)
  | .prgRom i => some (s.cfg.prgRom.read i)
  | .ppu _ => none
  | .stub => none
  | .oamDma => none
  | .pad0 => none
  | .pad1 => none

/-- Put a byte into the memory behind an address, PRG ROM included; the address of a register is left alone. -/
def placeByte (s : State) (a : Word) (d : Byte) : State :=
  match regionOf s.cfg a with
  | .ram i => s.mapBus fun b => { b with ram := b.ram.write i d }
  | .scratch i => s.mapBus fun b => { b with scratch := b.scratch.write i d }
  | .prgRam i => s.mapBus fun b => { b with prgRam := b.prgRam.write i d }
  | .prgRom i => { s with cfg := { s.cfg with prgRom := s.cfg.prgRom.write i d } }
  | .ppu _ => s
  | .stub => s
  | .oamDma => s
  | .pad0 => s
  | .pad1 => s

/-- Put bytes at consecutive addresses. -/
def placeBytes (s : State) (a : Word) : List Byte → State
  | [] => s
  | d :: rest => placeBytes (placeByte s a d) (a + 1) rest

/-- PC, if the longest instruction at PC lies in memory; else the start of RAM page 2, which does (log 11). -/
def fetchAddress (s : State) : Word :=
  if (peek s s.cpu.pc).isSome && (peek s (s.cpu.pc + 1)).isSome && (peek s (s.cpu.pc + 2)).isSome then s.cpu.pc else 0x0200

/-- The machine about to take a fetch sub-step at its next tick with no NMI before it (log 11): running, the divider at its
last count, no cycle owed, no NMI pending, and past the one dot that would raise one. -/
def aboutToFetch (s : State) : State :=
  { s with
    cpu := { s.cpu with runStatus := .running, idleCycles := 0 }
    bus := { s.bus with nmiGenerated := false, clockDiv := 2 }
    ppu := if raisesNmi s.ppu then { s.ppu with dot := s.ppu.dot + 1 } else s.ppu }

/-- The given bytes placed where the next tick fetches, and the machine about to fetch them. -/
def placeInstruction (bytes : List Byte) (s : State) : State :=
  placeBytes ((aboutToFetch s).mapCpu fun c => { c with pc := fetchAddress s }) (fetchAddress s) bytes

end Sys2Proof.Machine
end

