-- ==== Sys2Proof/Machine/Operands.lean ====
section
/-!
DEFINITION. The addressing modes (R140 to R152) and the operand classes (R139): one function per mode that gives the effective
address and `crossed`, and one shape per class (read, write, read-modify-write, accumulator, implied, branch) that makes
exactly the accesses the class has (R153), then advances PC and charges the cycles (R133 to R136).
The operand bytes come decoded: the fetch has read each once, in order (R112).
-/

namespace Sys2Proof.Machine

/-- `(EA, crossed)` of a mode (R133). -/
structure Operand where
  addr : Word
  crossed : Bool
  deriving DecidableEq, Repr

/-- An address of page 0. -/
def zeroPageAddress (b : Byte) : Word := b.setWidth 16

/-- The word at a zero-page pointer, its high byte at `(zp + 1) mod 256` (R150, R151). Page 0 is CPU RAM (R72, R74), so the
two reads are RAM reads and have no side effect. -/
def zeroPageWord (zp : Byte) (s : State) : Word := wordOf (s.bus.ram.read zp.toNat) (s.bus.ram.read (zp + 1).toNat)

/-- An indexed address: `EA = (base + index) mod 65536`, `crossed` when the high bytes differ (R147, R148, R151). -/
def indexed (base : Word) (index : Byte) : Operand :=
  let ea := base + index.setWidth 16
  { addr := ea, crossed := hiByte base != hiByte ea }

/-- ZeroPage (R143). -/
def modeZp (zp : Byte) : Operand := { addr := zeroPageAddress zp, crossed := false }

/-- ZeroPage,X: `(b1 + X) mod 256` (R144). -/
def modeZpX (zp : Byte) (s : State) : Operand := { addr := zeroPageAddress (zp + s.cpu.x), crossed := false }

/-- ZeroPage,Y: `(b1 + Y) mod 256` (R145). -/
def modeZpY (zp : Byte) (s : State) : Operand := { addr := zeroPageAddress (zp + s.cpu.y), crossed := false }

/-- Absolute (R146). -/
def modeAbs (addr : Word) : Operand := { addr := addr, crossed := false }

/-- Absolute,X (R147). -/
def modeAbsX (addr : Word) (s : State) : Operand := indexed addr s.cpu.x

/-- Absolute,Y (R148). -/
def modeAbsY (addr : Word) (s : State) : Operand := indexed addr s.cpu.y

/-- Indirect,X: the pointer is at `(b1 + X) mod 256` (R150). -/
def modeIndX (zp : Byte) (s : State) : Operand := { addr := zeroPageWord (zp + s.cpu.x) s, crossed := false }

/-- Indirect,Y: the pointer is at b1, then Y is added (R151). -/
def modeIndY (zp : Byte) (s : State) : Operand := indexed (zeroPageWord zp s) s.cpu.y

/-! ### Register results -/

/-- `A <- v; setZN(A)`. -/
def loadA (v : Byte) (s : State) : State := s.mapCpu fun c => { c with a := v, p := setZN v c.p }

/-- `X <- v; setZN(X)`. -/
def loadX (v : Byte) (s : State) : State := s.mapCpu fun c => { c with x := v, p := setZN v c.p }

/-- `Y <- v; setZN(Y)`. -/
def loadY (v : Byte) (s : State) : State := s.mapCpu fun c => { c with y := v, p := setZN v c.p }

/-- Replace P. -/
def setStatus (p : Byte) (s : State) : State := s.mapCpu fun c => { c with p := p }

/-! ### Operand classes -/

/-- The page-cross penalty: 1 when the row's page-cross bit is set and the address crossed (R136). -/
def penalty (pageCross : Bool) (ea : Operand) : Nat := if pageCross && ea.crossed then 1 else 0

/-- The read class with an immediate operand: M is the operand byte itself; length 2, 2 cycles (R139, R142). -/
def runImmediate (m : Byte) (op : Byte → State → State) (s : State) : Host.Outcome State Fault Refusal :=
  .next (advance 2 1 (op m s))

/-- The read class: `M <- MemRead(EA, 1)`, once, then the operation (R139). -/
def runRead (len : Word) (base : Nat) (pageCross : Bool) (ea : Operand) (op : Byte → State → State) (s : State) :
    Host.Outcome State Fault Refusal :=
  settle <| (memRead ea.addr s).andThen fun m s1 => .done () (advance len (base - 1 + penalty pageCross ea) (op m s1))

/-- The write class: one `MemWrite(EA, 1, v)` and no read of EA (R139). -/
def runWrite (len : Word) (base : Nat) (ea : Operand) (v : Byte) (s : State) : Host.Outcome State Fault Refusal :=
  settle <| (memWrite ea.addr v s).andThen fun _ s1 => .done () (advance len (base - 1) s1)

/-- The read-modify-write class: one `MemRead(EA, 1)`, then one `MemWrite(EA, 1, r)`, then setZN(r) (R139). `before` is what
the rule writes into P before the store; it stays if the store faults (R155). -/
def runModify (len : Word) (base : Nat) (ea : Operand) (result : Byte → State → Byte) (before : Byte → Byte → Byte) (s : State) :
    Host.Outcome State Fault Refusal :=
  settle <|
    (memRead ea.addr s).andThen fun m s1 =>
      let r := result m s1
      (memWrite ea.addr r (setStatus (before m s1.cpu.p) s1)).andThen fun _ s2 =>
        .done () (advance len (base - 1) (setStatus (setZN r s2.cpu.p) s2))

/-- The implied and accumulator classes: no memory access; length 1, 2 cycles (R139 to R141). -/
def runRegister (op : State → State) (s : State) : Host.Outcome State Fault Refusal := .next (advance 1 1 (op s))

/-- The Relative target: `(PC + 2 + displacement) mod 65536` (R152). -/
def branchTarget (pc : Word) (disp : Int) : Word := pc + 2 + BitVec.ofInt 16 disp

/-- `branch_extra` of a taken branch: 1 in the page of PC + 2, 2 in another (R135). -/
def branchExtra (pc : Word) (disp : Int) : Nat := if hiByte (pc + 2) = hiByte (branchTarget pc disp) then 1 else 2

/-- The shape of the eight branches: 2 bytes, 2 base cycles (48_branch_jump.md). -/
def runBranch (cond : Bool) (disp : Int) (s : State) : Host.Outcome State Fault Refusal :=
  if cond then .next (retire (branchTarget s.cpu.pc disp) (1 + branchExtra s.cpu.pc disp) s) else .next (advance 2 1 s)

end Sys2Proof.Machine
end

