-- ==== Sys2Proof/Machine/ArithLogic.lean ====
section
/-!
DEFINITION. The arithmetic and logic instructions (44_arith_logic.md R200 to R205).
-/

namespace Sys2Proof.Machine

/-- ADC's effect (R200): the binary sum, whatever D is (D23). -/
def opAdc (m : Byte) (s : State) : State :=
  s.mapCpu fun c => { c with a := addResult c.a m (getFlag .carry c.p), p := addFlags c.a m c.p }

/-- SBC's effect (R201): ADC of the complemented operand. -/
def opSbc (m : Byte) (s : State) : State := opAdc (subtrahend m) s

/-- AND's effect (R202). -/
def opAnd (m : Byte) (s : State) : State := loadA (s.cpu.a &&& m) s

/-- ORA's effect (R203). -/
def opOra (m : Byte) (s : State) : State := loadA (s.cpu.a ||| m) s

/-- EOR's effect (R204). -/
def opEor (m : Byte) (s : State) : State := loadA (s.cpu.a ^^^ m) s

/-- BIT's effect (R205). -/
def opBit (m : Byte) (s : State) : State := setStatus (bitFlags s.cpu.a m s.cpu.p) s

/-! ### ADC (R200) -/

/-- `69` `ADC #$nn` (R200). -/
def execAdcImm (m : Byte) (s : State) : Host.Outcome State Fault Refusal :=
  runImmediate m opAdc s

/-- `65` `ADC $nn` (R200). -/
def execAdcZp (zp : Byte) (s : State) : Host.Outcome State Fault Refusal :=
  runRead 2 3 false (modeZp zp) opAdc s

/-- `75` `ADC $nn,X` (R200). -/
def execAdcZpX (zp : Byte) (s : State) : Host.Outcome State Fault Refusal :=
  runRead 2 4 false (modeZpX zp s) opAdc s

/-- `6D` `ADC $hhll` (R200). -/
def execAdcAbs (addr : Word) (s : State) : Host.Outcome State Fault Refusal :=
  runRead 3 4 false (modeAbs addr) opAdc s

/-- `7D` `ADC $hhll,X` (R200). -/
def execAdcAbsX (addr : Word) (s : State) : Host.Outcome State Fault Refusal :=
  runRead 3 4 true (modeAbsX addr s) opAdc s

/-- `79` `ADC $hhll,Y` (R200). -/
def execAdcAbsY (addr : Word) (s : State) : Host.Outcome State Fault Refusal :=
  runRead 3 4 true (modeAbsY addr s) opAdc s

/-- `61` `ADC ($nn,X)` (R200). -/
def execAdcIndX (zp : Byte) (s : State) : Host.Outcome State Fault Refusal :=
  runRead 2 6 false (modeIndX zp s) opAdc s

/-- `71` `ADC ($nn),Y` (R200). -/
def execAdcIndY (zp : Byte) (s : State) : Host.Outcome State Fault Refusal :=
  runRead 2 5 true (modeIndY zp s) opAdc s

/-! ### SBC (R201) -/

/-- `E9` `SBC #$nn` (R201). -/
def execSbcImm (m : Byte) (s : State) : Host.Outcome State Fault Refusal :=
  runImmediate m opSbc s

/-- `E5` `SBC $nn` (R201). -/
def execSbcZp (zp : Byte) (s : State) : Host.Outcome State Fault Refusal :=
  runRead 2 3 false (modeZp zp) opSbc s

/-- `F5` `SBC $nn,X` (R201). -/
def execSbcZpX (zp : Byte) (s : State) : Host.Outcome State Fault Refusal :=
  runRead 2 4 false (modeZpX zp s) opSbc s

/-- `ED` `SBC $hhll` (R201). -/
def execSbcAbs (addr : Word) (s : State) : Host.Outcome State Fault Refusal :=
  runRead 3 4 false (modeAbs addr) opSbc s

/-- `FD` `SBC $hhll,X` (R201). -/
def execSbcAbsX (addr : Word) (s : State) : Host.Outcome State Fault Refusal :=
  runRead 3 4 true (modeAbsX addr s) opSbc s

/-- `F9` `SBC $hhll,Y` (R201). -/
def execSbcAbsY (addr : Word) (s : State) : Host.Outcome State Fault Refusal :=
  runRead 3 4 true (modeAbsY addr s) opSbc s

/-- `E1` `SBC ($nn,X)` (R201). -/
def execSbcIndX (zp : Byte) (s : State) : Host.Outcome State Fault Refusal :=
  runRead 2 6 false (modeIndX zp s) opSbc s

/-- `F1` `SBC ($nn),Y` (R201). -/
def execSbcIndY (zp : Byte) (s : State) : Host.Outcome State Fault Refusal :=
  runRead 2 5 true (modeIndY zp s) opSbc s

/-! ### AND (R202) -/

/-- `29` `AND #$nn` (R202). -/
def execAndImm (m : Byte) (s : State) : Host.Outcome State Fault Refusal :=
  runImmediate m opAnd s

/-- `25` `AND $nn` (R202). -/
def execAndZp (zp : Byte) (s : State) : Host.Outcome State Fault Refusal :=
  runRead 2 3 false (modeZp zp) opAnd s

/-- `35` `AND $nn,X` (R202). -/
def execAndZpX (zp : Byte) (s : State) : Host.Outcome State Fault Refusal :=
  runRead 2 4 false (modeZpX zp s) opAnd s

/-- `2D` `AND $hhll` (R202). -/
def execAndAbs (addr : Word) (s : State) : Host.Outcome State Fault Refusal :=
  runRead 3 4 false (modeAbs addr) opAnd s

/-- `3D` `AND $hhll,X` (R202). -/
def execAndAbsX (addr : Word) (s : State) : Host.Outcome State Fault Refusal :=
  runRead 3 4 true (modeAbsX addr s) opAnd s

/-- `39` `AND $hhll,Y` (R202). -/
def execAndAbsY (addr : Word) (s : State) : Host.Outcome State Fault Refusal :=
  runRead 3 4 true (modeAbsY addr s) opAnd s

/-- `21` `AND ($nn,X)` (R202). -/
def execAndIndX (zp : Byte) (s : State) : Host.Outcome State Fault Refusal :=
  runRead 2 6 false (modeIndX zp s) opAnd s

/-- `31` `AND ($nn),Y` (R202). -/
def execAndIndY (zp : Byte) (s : State) : Host.Outcome State Fault Refusal :=
  runRead 2 5 true (modeIndY zp s) opAnd s

/-! ### ORA (R203) -/

/-- `09` `ORA #$nn` (R203). -/
def execOraImm (m : Byte) (s : State) : Host.Outcome State Fault Refusal :=
  runImmediate m opOra s

/-- `05` `ORA $nn` (R203). -/
def execOraZp (zp : Byte) (s : State) : Host.Outcome State Fault Refusal :=
  runRead 2 3 false (modeZp zp) opOra s

/-- `15` `ORA $nn,X` (R203). -/
def execOraZpX (zp : Byte) (s : State) : Host.Outcome State Fault Refusal :=
  runRead 2 4 false (modeZpX zp s) opOra s

/-- `0D` `ORA $hhll` (R203). -/
def execOraAbs (addr : Word) (s : State) : Host.Outcome State Fault Refusal :=
  runRead 3 4 false (modeAbs addr) opOra s

/-- `1D` `ORA $hhll,X` (R203). -/
def execOraAbsX (addr : Word) (s : State) : Host.Outcome State Fault Refusal :=
  runRead 3 4 true (modeAbsX addr s) opOra s

/-- `19` `ORA $hhll,Y` (R203). -/
def execOraAbsY (addr : Word) (s : State) : Host.Outcome State Fault Refusal :=
  runRead 3 4 true (modeAbsY addr s) opOra s

/-- `01` `ORA ($nn,X)` (R203). -/
def execOraIndX (zp : Byte) (s : State) : Host.Outcome State Fault Refusal :=
  runRead 2 6 false (modeIndX zp s) opOra s

/-- `11` `ORA ($nn),Y` (R203). -/
def execOraIndY (zp : Byte) (s : State) : Host.Outcome State Fault Refusal :=
  runRead 2 5 true (modeIndY zp s) opOra s

/-! ### EOR (R204) -/

/-- `49` `EOR #$nn` (R204). -/
def execEorImm (m : Byte) (s : State) : Host.Outcome State Fault Refusal :=
  runImmediate m opEor s

/-- `45` `EOR $nn` (R204). -/
def execEorZp (zp : Byte) (s : State) : Host.Outcome State Fault Refusal :=
  runRead 2 3 false (modeZp zp) opEor s

/-- `55` `EOR $nn,X` (R204). -/
def execEorZpX (zp : Byte) (s : State) : Host.Outcome State Fault Refusal :=
  runRead 2 4 false (modeZpX zp s) opEor s

/-- `4D` `EOR $hhll` (R204). -/
def execEorAbs (addr : Word) (s : State) : Host.Outcome State Fault Refusal :=
  runRead 3 4 false (modeAbs addr) opEor s

/-- `5D` `EOR $hhll,X` (R204). -/
def execEorAbsX (addr : Word) (s : State) : Host.Outcome State Fault Refusal :=
  runRead 3 4 true (modeAbsX addr s) opEor s

/-- `59` `EOR $hhll,Y` (R204). -/
def execEorAbsY (addr : Word) (s : State) : Host.Outcome State Fault Refusal :=
  runRead 3 4 true (modeAbsY addr s) opEor s

/-- `41` `EOR ($nn,X)` (R204). -/
def execEorIndX (zp : Byte) (s : State) : Host.Outcome State Fault Refusal :=
  runRead 2 6 false (modeIndX zp s) opEor s

/-- `51` `EOR ($nn),Y` (R204). -/
def execEorIndY (zp : Byte) (s : State) : Host.Outcome State Fault Refusal :=
  runRead 2 5 true (modeIndY zp s) opEor s

/-! ### BIT (R205) -/

/-- `24` `BIT $nn` (R205). -/
def execBitZp (zp : Byte) (s : State) : Host.Outcome State Fault Refusal :=
  runRead 2 3 false (modeZp zp) opBit s

/-- `2C` `BIT $hhll` (R205). -/
def execBitAbs (addr : Word) (s : State) : Host.Outcome State Fault Refusal :=
  runRead 3 4 false (modeAbs addr) opBit s

end Sys2Proof.Machine
end

