-- ==== Sys2Proof/Machine/BranchJump.lean ====
section
/-!
DEFINITION. The branch, jump and subroutine instructions (48_branch_jump.md R240 to R250). None changes a flag.
-/

namespace Sys2Proof.Machine

/-- `90` `BCC $target` (R240). -/
def execBcc (disp : Int) (s : State) : Host.Outcome State Fault Refusal :=
  runBranch (!getFlag .carry s.cpu.p) disp s

/-- `B0` `BCS $target` (R241). -/
def execBcs (disp : Int) (s : State) : Host.Outcome State Fault Refusal :=
  runBranch (getFlag .carry s.cpu.p) disp s

/-- `F0` `BEQ $target` (R242). -/
def execBeq (disp : Int) (s : State) : Host.Outcome State Fault Refusal :=
  runBranch (getFlag .zero s.cpu.p) disp s

/-- `30` `BMI $target` (R243). -/
def execBmi (disp : Int) (s : State) : Host.Outcome State Fault Refusal :=
  runBranch (getFlag .negative s.cpu.p) disp s

/-- `D0` `BNE $target` (R244). -/
def execBne (disp : Int) (s : State) : Host.Outcome State Fault Refusal :=
  runBranch (!getFlag .zero s.cpu.p) disp s

/-- `10` `BPL $target` (R245). -/
def execBpl (disp : Int) (s : State) : Host.Outcome State Fault Refusal :=
  runBranch (!getFlag .negative s.cpu.p) disp s

/-- `50` `BVC $target` (R246). -/
def execBvc (disp : Int) (s : State) : Host.Outcome State Fault Refusal :=
  runBranch (!getFlag .overflow s.cpu.p) disp s

/-- `70` `BVS $target` (R247). -/
def execBvs (disp : Int) (s : State) : Host.Outcome State Fault Refusal :=
  runBranch (getFlag .overflow s.cpu.p) disp s

/-- `4C` `JMP $hhll` (R248). -/
def execJmpAbs (addr : Word) (s : State) : Host.Outcome State Fault Refusal :=
  .next (retire addr 2 s)

/-- `6C` `JMP ($hhll)` (R248). -/
def execJmpInd (ptr : Word) (s : State) : Host.Outcome State Fault Refusal :=
  settle <| (read16Wrap ptr s).andThen fun target s1 => .done () (retire target 4 s1)

/-- `20` `JSR $hhll` (R249): push PC + 2, the address of the instruction's last byte (C10). -/
def execJsr (addr : Word) (s : State) : Host.Outcome State Fault Refusal :=
  .next (retire addr 5 (pushWord (s.cpu.pc + 2) s))

/-- `60` `RTS` (R250): the pulled address, plus one. -/
def execRts (s : State) : Host.Outcome State Fault Refusal :=
  .next (retire (pulledWord s + 1) 5 (afterPull (afterPull s)))

end Sys2Proof.Machine
end

