-- ==== Sys2Proof/Machine/Compare.lean ====
section
/-!
DEFINITION. The compare instructions (47_compare.md R230 to R232). They change flags only, and never V.
-/

namespace Sys2Proof.Machine

/-- CMP's effect (R230): flags only. -/
def opCmp (m : Byte) (s : State) : State := setStatus (compareFlags s.cpu.a m s.cpu.p) s

/-- CPX's effect (R231). -/
def opCpx (m : Byte) (s : State) : State := setStatus (compareFlags s.cpu.x m s.cpu.p) s

/-- CPY's effect (R232). -/
def opCpy (m : Byte) (s : State) : State := setStatus (compareFlags s.cpu.y m s.cpu.p) s

/-- `C9` `CMP #$nn` (R230). -/
def execCmpImm (m : Byte) (s : State) : Host.Outcome State Fault Refusal :=
  runImmediate m opCmp s

/-- `C5` `CMP $nn` (R230). -/
def execCmpZp (zp : Byte) (s : State) : Host.Outcome State Fault Refusal :=
  runRead 2 3 false (modeZp zp) opCmp s

/-- `D5` `CMP $nn,X` (R230). -/
def execCmpZpX (zp : Byte) (s : State) : Host.Outcome State Fault Refusal :=
  runRead 2 4 false (modeZpX zp s) opCmp s

/-- `CD` `CMP $hhll` (R230). -/
def execCmpAbs (addr : Word) (s : State) : Host.Outcome State Fault Refusal :=
  runRead 3 4 false (modeAbs addr) opCmp s

/-- `DD` `CMP $hhll,X` (R230). -/
def execCmpAbsX (addr : Word) (s : State) : Host.Outcome State Fault Refusal :=
  runRead 3 4 true (modeAbsX addr s) opCmp s

/-- `D9` `CMP $hhll,Y` (R230). -/
def execCmpAbsY (addr : Word) (s : State) : Host.Outcome State Fault Refusal :=
  runRead 3 4 true (modeAbsY addr s) opCmp s

/-- `C1` `CMP ($nn,X)` (R230). -/
def execCmpIndX (zp : Byte) (s : State) : Host.Outcome State Fault Refusal :=
  runRead 2 6 false (modeIndX zp s) opCmp s

/-- `D1` `CMP ($nn),Y` (R230). -/
def execCmpIndY (zp : Byte) (s : State) : Host.Outcome State Fault Refusal :=
  runRead 2 5 true (modeIndY zp s) opCmp s

/-- `E0` `CPX #$nn` (R231). -/
def execCpxImm (m : Byte) (s : State) : Host.Outcome State Fault Refusal :=
  runImmediate m opCpx s

/-- `E4` `CPX $nn` (R231). -/
def execCpxZp (zp : Byte) (s : State) : Host.Outcome State Fault Refusal :=
  runRead 2 3 false (modeZp zp) opCpx s

/-- `EC` `CPX $hhll` (R231). -/
def execCpxAbs (addr : Word) (s : State) : Host.Outcome State Fault Refusal :=
  runRead 3 4 false (modeAbs addr) opCpx s

/-- `C0` `CPY #$nn` (R232). -/
def execCpyImm (m : Byte) (s : State) : Host.Outcome State Fault Refusal :=
  runImmediate m opCpy s

/-- `C4` `CPY $nn` (R232). -/
def execCpyZp (zp : Byte) (s : State) : Host.Outcome State Fault Refusal :=
  runRead 2 3 false (modeZp zp) opCpy s

/-- `CC` `CPY $hhll` (R232). -/
def execCpyAbs (addr : Word) (s : State) : Host.Outcome State Fault Refusal :=
  runRead 3 4 false (modeAbs addr) opCpy s

end Sys2Proof.Machine
end

