-- ==== Sys2Proof/Machine/FlagSystem.lean ====
section
/-!
DEFINITION. The flag instructions, NOP, BRK and RTI (49_flag_nop_brk_rti.md R260 to R269).
-/

namespace Sys2Proof.Machine

/-- `F <- b`, that flag only (R260 to R266). -/
def writeFlag (f : Flag) (b : Bool) (s : State) : State := setStatus (setFlag f b s.cpu.p) s

/-- `18` `CLC` (R260). -/
def execClc (s : State) : Host.Outcome State Fault Refusal :=
  runRegister (writeFlag .carry false) s

/-- `D8` `CLD` (R261). -/
def execCld (s : State) : Host.Outcome State Fault Refusal :=
  runRegister (writeFlag .decimal false) s

/-- `58` `CLI` (R262). -/
def execCli (s : State) : Host.Outcome State Fault Refusal :=
  runRegister (writeFlag .interruptDisable false) s

/-- `B8` `CLV` (R263). -/
def execClv (s : State) : Host.Outcome State Fault Refusal :=
  runRegister (writeFlag .overflow false) s

/-- `38` `SEC` (R264). -/
def execSec (s : State) : Host.Outcome State Fault Refusal :=
  runRegister (writeFlag .carry true) s

/-- `F8` `SED` (R265). -/
def execSed (s : State) : Host.Outcome State Fault Refusal :=
  runRegister (writeFlag .decimal true) s

/-- `78` `SEI` (R266). -/
def execSei (s : State) : Host.Outcome State Fault Refusal :=
  runRegister (writeFlag .interruptDisable true) s

/-- `EA` `NOP` (R267). -/
def execNop (s : State) : Host.Outcome State Fault Refusal :=
  runRegister (fun s => s) s

/-- `00` `BRK` (R268): by BRK_MODE, a vector through `$FFFE` (R413), or a halt with PC kept at the BRK (R416). -/
def execBrk (s : State) : Host.Outcome State Fault Refusal :=
  match s.cfg.brkMode with
  | .halt => .next (charge 6 (s.mapCpu fun c => { c with runStatus := .halted }))
  | .vector => .next (charge 6 (takeInterrupt (s.cpu.pc + 2) (pushedByInstruction s.cpu.p) 0xFFFE s))

/-- `40` `RTI` (R269, R414): P, then PC, from the stack, with no +1. -/
def execRti (s : State) : Host.Outcome State Fault Refusal := .next (charge 5 (returnFromInterrupt s))

end Sys2Proof.Machine
end

