-- ==== Sys2Proof/Machine/IncDec.lean ====
section
/-!
DEFINITION. The increment and decrement instructions (45_inc_dec.md R210 to R215). All wrap modulo 256; none touches C or V.
-/

namespace Sys2Proof.Machine

/-- INC and DEC on memory (R210, R211): no flag changes before the store. -/
def stepMemory (delta : Byte) (len : Word) (base : Nat) (ea : Operand) (s : State) : Host.Outcome State Fault Refusal :=
  runModify len base ea (fun m _ => m + delta) (fun _ p => p) s

/-- `E6` `INC $nn` (R210). -/
def execIncZp (zp : Byte) (s : State) : Host.Outcome State Fault Refusal :=
  stepMemory 1 2 5 (modeZp zp) s

/-- `F6` `INC $nn,X` (R210). -/
def execIncZpX (zp : Byte) (s : State) : Host.Outcome State Fault Refusal :=
  stepMemory 1 2 6 (modeZpX zp s) s

/-- `EE` `INC $hhll` (R210). -/
def execIncAbs (addr : Word) (s : State) : Host.Outcome State Fault Refusal :=
  stepMemory 1 3 6 (modeAbs addr) s

/-- `FE` `INC $hhll,X` (R210). -/
def execIncAbsX (addr : Word) (s : State) : Host.Outcome State Fault Refusal :=
  stepMemory 1 3 7 (modeAbsX addr s) s

/-- `C6` `DEC $nn` (R211). -/
def execDecZp (zp : Byte) (s : State) : Host.Outcome State Fault Refusal :=
  stepMemory (-1) 2 5 (modeZp zp) s

/-- `D6` `DEC $nn,X` (R211). -/
def execDecZpX (zp : Byte) (s : State) : Host.Outcome State Fault Refusal :=
  stepMemory (-1) 2 6 (modeZpX zp s) s

/-- `CE` `DEC $hhll` (R211). -/
def execDecAbs (addr : Word) (s : State) : Host.Outcome State Fault Refusal :=
  stepMemory (-1) 3 6 (modeAbs addr) s

/-- `DE` `DEC $hhll,X` (R211). -/
def execDecAbsX (addr : Word) (s : State) : Host.Outcome State Fault Refusal :=
  stepMemory (-1) 3 7 (modeAbsX addr s) s

/-- `E8` `INX` (R212). -/
def execInx (s : State) : Host.Outcome State Fault Refusal :=
  runRegister (fun s => loadX (s.cpu.x + 1) s) s

/-- `C8` `INY` (R213). -/
def execIny (s : State) : Host.Outcome State Fault Refusal :=
  runRegister (fun s => loadY (s.cpu.y + 1) s) s

/-- `CA` `DEX` (R214). -/
def execDex (s : State) : Host.Outcome State Fault Refusal :=
  runRegister (fun s => loadX (s.cpu.x - 1) s) s

/-- `88` `DEY` (R215). -/
def execDey (s : State) : Host.Outcome State Fault Refusal :=
  runRegister (fun s => loadY (s.cpu.y - 1) s) s

end Sys2Proof.Machine
end

