-- ==== Sys2Proof/Machine/LoadStore.lean ====
section
/-!
DEFINITION. The load and store instructions (41_load_store.md R170 to R175).
-/

namespace Sys2Proof.Machine

/-! ### LDA (R170) -/

/-- `A9` `LDA #$nn` (R170). -/
def execLdaImm (m : Byte) (s : State) : Host.Outcome State Fault Refusal :=
  runImmediate m loadA s

/-- `A5` `LDA $nn` (R170). -/
def execLdaZp (zp : Byte) (s : State) : Host.Outcome State Fault Refusal :=
  runRead 2 3 false (modeZp zp) loadA s

/-- `B5` `LDA $nn,X` (R170). -/
def execLdaZpX (zp : Byte) (s : State) : Host.Outcome State Fault Refusal :=
  runRead 2 4 false (modeZpX zp s) loadA s

/-- `AD` `LDA $hhll` (R170). -/
def execLdaAbs (addr : Word) (s : State) : Host.Outcome State Fault Refusal :=
  runRead 3 4 false (modeAbs addr) loadA s

/-- `BD` `LDA $hhll,X` (R170). -/
def execLdaAbsX (addr : Word) (s : State) : Host.Outcome State Fault Refusal :=
  runRead 3 4 true (modeAbsX addr s) loadA s

/-- `B9` `LDA $hhll,Y` (R170). -/
def execLdaAbsY (addr : Word) (s : State) : Host.Outcome State Fault Refusal :=
  runRead 3 4 true (modeAbsY addr s) loadA s

/-- `A1` `LDA ($nn,X)` (R170). -/
def execLdaIndX (zp : Byte) (s : State) : Host.Outcome State Fault Refusal :=
  runRead 2 6 false (modeIndX zp s) loadA s

/-- `B1` `LDA ($nn),Y` (R170). -/
def execLdaIndY (zp : Byte) (s : State) : Host.Outcome State Fault Refusal :=
  runRead 2 5 true (modeIndY zp s) loadA s

/-! ### LDX (R171) -/

/-- `A2` `LDX #$nn` (R171). -/
def execLdxImm (m : Byte) (s : State) : Host.Outcome State Fault Refusal :=
  runImmediate m loadX s

/-- `A6` `LDX $nn` (R171). -/
def execLdxZp (zp : Byte) (s : State) : Host.Outcome State Fault Refusal :=
  runRead 2 3 false (modeZp zp) loadX s

/-- `B6` `LDX $nn,Y` (R171). -/
def execLdxZpY (zp : Byte) (s : State) : Host.Outcome State Fault Refusal :=
  runRead 2 4 false (modeZpY zp s) loadX s

/-- `AE` `LDX $hhll` (R171). -/
def execLdxAbs (addr : Word) (s : State) : Host.Outcome State Fault Refusal :=
  runRead 3 4 false (modeAbs addr) loadX s

/-- `BE` `LDX $hhll,Y` (R171). -/
def execLdxAbsY (addr : Word) (s : State) : Host.Outcome State Fault Refusal :=
  runRead 3 4 true (modeAbsY addr s) loadX s

/-! ### LDY (R172) -/

/-- `A0` `LDY #$nn` (R172). -/
def execLdyImm (m : Byte) (s : State) : Host.Outcome State Fault Refusal :=
  runImmediate m loadY s

/-- `A4` `LDY $nn` (R172). -/
def execLdyZp (zp : Byte) (s : State) : Host.Outcome State Fault Refusal :=
  runRead 2 3 false (modeZp zp) loadY s

/-- `B4` `LDY $nn,X` (R172). -/
def execLdyZpX (zp : Byte) (s : State) : Host.Outcome State Fault Refusal :=
  runRead 2 4 false (modeZpX zp s) loadY s

/-- `AC` `LDY $hhll` (R172). -/
def execLdyAbs (addr : Word) (s : State) : Host.Outcome State Fault Refusal :=
  runRead 3 4 false (modeAbs addr) loadY s

/-- `BC` `LDY $hhll,X` (R172). -/
def execLdyAbsX (addr : Word) (s : State) : Host.Outcome State Fault Refusal :=
  runRead 3 4 true (modeAbsX addr s) loadY s

/-! ### STA (R173) -/

/-- `85` `STA $nn` (R173). -/
def execStaZp (zp : Byte) (s : State) : Host.Outcome State Fault Refusal :=
  runWrite 2 3 (modeZp zp) s.cpu.a s

/-- `95` `STA $nn,X` (R173). -/
def execStaZpX (zp : Byte) (s : State) : Host.Outcome State Fault Refusal :=
  runWrite 2 4 (modeZpX zp s) s.cpu.a s

/-- `8D` `STA $hhll` (R173). -/
def execStaAbs (addr : Word) (s : State) : Host.Outcome State Fault Refusal :=
  runWrite 3 4 (modeAbs addr) s.cpu.a s

/-- `9D` `STA $hhll,X` (R173). -/
def execStaAbsX (addr : Word) (s : State) : Host.Outcome State Fault Refusal :=
  runWrite 3 5 (modeAbsX addr s) s.cpu.a s

/-- `99` `STA $hhll,Y` (R173). -/
def execStaAbsY (addr : Word) (s : State) : Host.Outcome State Fault Refusal :=
  runWrite 3 5 (modeAbsY addr s) s.cpu.a s

/-- `81` `STA ($nn,X)` (R173). -/
def execStaIndX (zp : Byte) (s : State) : Host.Outcome State Fault Refusal :=
  runWrite 2 6 (modeIndX zp s) s.cpu.a s

/-- `91` `STA ($nn),Y` (R173). -/
def execStaIndY (zp : Byte) (s : State) : Host.Outcome State Fault Refusal :=
  runWrite 2 6 (modeIndY zp s) s.cpu.a s

/-! ### STX (R174) -/

/-- `86` `STX $nn` (R174). -/
def execStxZp (zp : Byte) (s : State) : Host.Outcome State Fault Refusal :=
  runWrite 2 3 (modeZp zp) s.cpu.x s

/-- `96` `STX $nn,Y` (R174). -/
def execStxZpY (zp : Byte) (s : State) : Host.Outcome State Fault Refusal :=
  runWrite 2 4 (modeZpY zp s) s.cpu.x s

/-- `8E` `STX $hhll` (R174). -/
def execStxAbs (addr : Word) (s : State) : Host.Outcome State Fault Refusal :=
  runWrite 3 4 (modeAbs addr) s.cpu.x s

/-! ### STY (R175) -/

/-- `84` `STY $nn` (R175). -/
def execStyZp (zp : Byte) (s : State) : Host.Outcome State Fault Refusal :=
  runWrite 2 3 (modeZp zp) s.cpu.y s

/-- `94` `STY $nn,X` (R175). -/
def execStyZpX (zp : Byte) (s : State) : Host.Outcome State Fault Refusal :=
  runWrite 2 4 (modeZpX zp s) s.cpu.y s

/-- `8C` `STY $hhll` (R175). -/
def execStyAbs (addr : Word) (s : State) : Host.Outcome State Fault Refusal :=
  runWrite 3 4 (modeAbs addr) s.cpu.y s

end Sys2Proof.Machine
end

