-- ==== Sys2Proof/Machine/ShiftRotate.lean ====
section
/-!
DEFINITION. The shift and rotate instructions (46_shift_rotate.md R220 to R223).
-/

namespace Sys2Proof.Machine

/-- A memory form: C takes the bit shifted out before the store, Z and N come from the result after it (R220 to R223).
`shift` gives the bit out and the result, from M and the value of C before the instruction. -/
def shiftMemory (shift : Byte → Bool → Bool × Byte) (len : Word) (base : Nat) (ea : Operand) (s : State) :
    Host.Outcome State Fault Refusal :=
  runModify len base ea (fun m s => (shift m (getFlag .carry s.cpu.p)).2)
    (fun m p => setFlag .carry (shift m (getFlag .carry p)).1 p) s

/-- The accumulator form (R141, R220 to R223). -/
def shiftAccumulator (shift : Byte → Bool → Bool × Byte) (s : State) : State :=
  let out := shift s.cpu.a (getFlag .carry s.cpu.p)
  loadA out.2 (setStatus (setFlag .carry out.1 s.cpu.p) s)

/-! ### ASL (R220) -/

/-- `0A` `ASL A` (R220). -/
def execAslAcc (s : State) : Host.Outcome State Fault Refusal :=
  runRegister (shiftAccumulator (fun m _ => shiftLeft m)) s

/-- `06` `ASL $nn` (R220). -/
def execAslZp (zp : Byte) (s : State) : Host.Outcome State Fault Refusal :=
  shiftMemory (fun m _ => shiftLeft m) 2 5 (modeZp zp) s

/-- `16` `ASL $nn,X` (R220). -/
def execAslZpX (zp : Byte) (s : State) : Host.Outcome State Fault Refusal :=
  shiftMemory (fun m _ => shiftLeft m) 2 6 (modeZpX zp s) s

/-- `0E` `ASL $hhll` (R220). -/
def execAslAbs (addr : Word) (s : State) : Host.Outcome State Fault Refusal :=
  shiftMemory (fun m _ => shiftLeft m) 3 6 (modeAbs addr) s

/-- `1E` `ASL $hhll,X` (R220). -/
def execAslAbsX (addr : Word) (s : State) : Host.Outcome State Fault Refusal :=
  shiftMemory (fun m _ => shiftLeft m) 3 7 (modeAbsX addr s) s

/-! ### LSR (R221) -/

/-- `4A` `LSR A` (R221). -/
def execLsrAcc (s : State) : Host.Outcome State Fault Refusal :=
  runRegister (shiftAccumulator (fun m _ => shiftRight m)) s

/-- `46` `LSR $nn` (R221). -/
def execLsrZp (zp : Byte) (s : State) : Host.Outcome State Fault Refusal :=
  shiftMemory (fun m _ => shiftRight m) 2 5 (modeZp zp) s

/-- `56` `LSR $nn,X` (R221). -/
def execLsrZpX (zp : Byte) (s : State) : Host.Outcome State Fault Refusal :=
  shiftMemory (fun m _ => shiftRight m) 2 6 (modeZpX zp s) s

/-- `4E` `LSR $hhll` (R221). -/
def execLsrAbs (addr : Word) (s : State) : Host.Outcome State Fault Refusal :=
  shiftMemory (fun m _ => shiftRight m) 3 6 (modeAbs addr) s

/-- `5E` `LSR $hhll,X` (R221). -/
def execLsrAbsX (addr : Word) (s : State) : Host.Outcome State Fault Refusal :=
  shiftMemory (fun m _ => shiftRight m) 3 7 (modeAbsX addr s) s

/-! ### ROL (R222) -/

/-- `2A` `ROL A` (R222). -/
def execRolAcc (s : State) : Host.Outcome State Fault Refusal :=
  runRegister (shiftAccumulator rotateLeft) s

/-- `26` `ROL $nn` (R222). -/
def execRolZp (zp : Byte) (s : State) : Host.Outcome State Fault Refusal :=
  shiftMemory rotateLeft 2 5 (modeZp zp) s

/-- `36` `ROL $nn,X` (R222). -/
def execRolZpX (zp : Byte) (s : State) : Host.Outcome State Fault Refusal :=
  shiftMemory rotateLeft 2 6 (modeZpX zp s) s

/-- `2E` `ROL $hhll` (R222). -/
def execRolAbs (addr : Word) (s : State) : Host.Outcome State Fault Refusal :=
  shiftMemory rotateLeft 3 6 (modeAbs addr) s

/-- `3E` `ROL $hhll,X` (R222). -/
def execRolAbsX (addr : Word) (s : State) : Host.Outcome State Fault Refusal :=
  shiftMemory rotateLeft 3 7 (modeAbsX addr s) s

/-! ### ROR (R223) -/

/-- `6A` `ROR A` (R223). -/
def execRorAcc (s : State) : Host.Outcome State Fault Refusal :=
  runRegister (shiftAccumulator rotateRight) s

/-- `66` `ROR $nn` (R223). -/
def execRorZp (zp : Byte) (s : State) : Host.Outcome State Fault Refusal :=
  shiftMemory rotateRight 2 5 (modeZp zp) s

/-- `76` `ROR $nn,X` (R223). -/
def execRorZpX (zp : Byte) (s : State) : Host.Outcome State Fault Refusal :=
  shiftMemory rotateRight 2 6 (modeZpX zp s) s

/-- `6E` `ROR $hhll` (R223). -/
def execRorAbs (addr : Word) (s : State) : Host.Outcome State Fault Refusal :=
  shiftMemory rotateRight 3 6 (modeAbs addr) s

/-- `7E` `ROR $hhll,X` (R223). -/
def execRorAbsX (addr : Word) (s : State) : Host.Outcome State Fault Refusal :=
  shiftMemory rotateRight 3 7 (modeAbsX addr s) s

end Sys2Proof.Machine
end

