-- ==== Sys2Proof/Machine/Stack.lean ====
section
/-!
DEFINITION. The stack instructions (43_stack.md R190 to R193). Stack accesses never fault, and SP wraps silently (R14).
-/

namespace Sys2Proof.Machine

/-- `48` `PHA` (R190). -/
def execPha (s : State) : Host.Outcome State Fault Refusal :=
  .next (advance 1 2 (push s.cpu.a s))

/-- `08` `PHP` (R191). -/
def execPhp (s : State) : Host.Outcome State Fault Refusal :=
  .next (advance 1 2 (push (pushedByInstruction s.cpu.p) s))

/-- `68` `PLA` (R192). -/
def execPla (s : State) : Host.Outcome State Fault Refusal :=
  .next (advance 1 3 (loadA (pulledByte s) (afterPull s)))

/-- `28` `PLP` (R193). -/
def execPlp (s : State) : Host.Outcome State Fault Refusal :=
  .next (advance 1 3 (setStatus (pulledStatus (pulledByte s)) (afterPull s)))

end Sys2Proof.Machine
end

