-- ==== Sys2Proof/Machine/Transfer.lean ====
section
/-!
DEFINITION. The register transfer instructions (42_transfer.md R180 to R185). TXS alone leaves Z and N unchanged (R184).
-/

namespace Sys2Proof.Machine

/-- `AA` `TAX` (R180). -/
def execTax (s : State) : Host.Outcome State Fault Refusal :=
  runRegister (fun s => loadX s.cpu.a s) s

/-- `A8` `TAY` (R181). -/
def execTay (s : State) : Host.Outcome State Fault Refusal :=
  runRegister (fun s => loadY s.cpu.a s) s

/-- `BA` `TSX` (R182). -/
def execTsx (s : State) : Host.Outcome State Fault Refusal :=
  runRegister (fun s => loadX s.cpu.sp s) s

/-- `8A` `TXA` (R183). -/
def execTxa (s : State) : Host.Outcome State Fault Refusal :=
  runRegister (fun s => loadA s.cpu.x s) s

/-- `9A` `TXS` (R184). -/
def execTxs (s : State) : Host.Outcome State Fault Refusal :=
  runRegister (fun s => s.mapCpu fun c => { c with sp := c.x }) s

/-- `98` `TYA` (R185). -/
def execTya (s : State) : Host.Outcome State Fault Refusal :=
  runRegister (fun s => loadA s.cpu.y s) s

end Sys2Proof.Machine
end

