-- ==== Sys2Proof/Machine/Fetch.lean ====
section
/-!
DEFINITION. Fetch, decode, execute (R133): the opcode read, the trace line (R424), the operand reads of the row's mode (R112,
R117), then the meaning of the instruction.
-/

namespace Sys2Proof.Machine

/-- The trace line of a fetch sub-step: PC, the opcode that execute_one read, and the registers and cycle count before the
instruction (R424, D33). -/
def traceLine (opcode : Byte) (c : Cpu) : TraceLine where
  pc := c.pc
  opcode := opcode
  a := c.a
  x := c.x
  y := c.y
  sp := c.sp
  status := c.p
  cycles := c.cycles

/-- `trace_emit()` (R130, R424). -/
def emitTrace (opcode : Byte) (s : State) : State := { s with trace := traceLine opcode s.cpu :: s.trace }

/-- Read the operand bytes that a row's mode calls for, each once, in order (R112, R117). -/
def readOperands (row : Template) (s : State) : Access Instr :=
  match row with
  | .alone i => .done i s
  | .oneByte make => (memRead (s.cpu.pc + 1) s).andThen fun b1 s1 => .done (make b1) s1
  | .twoBytes make => (read16 (s.cpu.pc + 1) s).andThen fun w s1 => .done (make w) s1

/-- Read the opcode at PC through the bus, emit the trace line, and read the operands. An opcode with no row raises
UnknownOpcode before any other state changes, its trace line emitted (R115, R133, R424). -/
def fetch (s : State) : Access Instr :=
  (memRead s.cpu.pc s).andThen fun opcode s1 =>
    match rowOf opcode with
    | none => .stopped (.unknownOpcode opcode s1.cpu.pc) (emitTrace opcode s1)
    | some row => readOperands row (emitTrace opcode s1)

/-- `execute_one()` (R133). PC is the opcode's address throughout (R134). -/
def executeOne (s : State) : Host.Outcome State Fault Refusal :=
  match fetch s with
  | .done i s1 => exec i s1
  | .stopped f s1 => .next (s1.stopWith f)

end Sys2Proof.Machine
end

