-- ==== Sys2Proof/Machine/Tick.lean ====
section
/-!
DEFINITION. The schedule: the CPU sub-step (R130 to R132, R156), the system tick (R420, R428), and the harness entry
run_instruction (R157).
-/

namespace Sys2Proof.Machine

/-- `cycles <- cycles + 1` (R156). -/
def countCycle (s : State) : State := s.mapCpu fun c => { c with cycles := c.cycles + 1 }

/-- Count the sub-step unless it ended in a fault (R155, R418). -/
def countCompleted (s : State) : State :=
  match s.cpu.runStatus with
  | .faulted _ => s
  | .halted => countCycle s
  | .running => countCycle s

/-- An idle sub-step (R131): one DMA cycle if a DMA is active, then one cycle less owed. A fault in the DMA read leaves the
counts as they were (R418). -/
def idleStep (s : State) : Host.Outcome State Fault Refusal :=
  settle <|
    (if s.bus.dma.active then dmaCycle s else .done () s).andThen fun _ s1 =>
      .done () (countCycle (s1.mapCpu fun c => { c with idleCycles := c.idleCycles - 1 }))

/-- A fetch sub-step (R132, R133): NMI entry if the flag is set, with no return, then one instruction. -/
def fetchStep (s : State) : Host.Outcome State Fault Refusal :=
  match executeOne (if s.bus.nmiGenerated then nmiEntry s else s) with
  | .next t => .next (countCompleted t)
  | .fault f => .fault f
  | .refused r => .refused r

/-- `cpu_step()` (R130). -/
def cpuStep (s : State) : Host.Outcome State Fault Refusal :=
  match s.cpu.runStatus with
  | .running => if 0 < s.cpu.idleCycles then idleStep s else fetchStep s
  | .halted => .next s
  | .faulted _ => .next s

/-- The part of a system tick before the CPU's (R420): the PPU's dot with its NMI flag, the advance, the divider. -/
def ppuTick (s : State) : State :=
  { s with
    ppu := ppuStep s.cfg s.ppu
    bus :=
      { s.bus with
        nmiGenerated := s.bus.nmiGenerated || raisesNmi s.ppu
        clockDiv := s.bus.clockDiv + 1 } }

/-- `system_tick()` (R420): the PPU's part, then a CPU sub-step on every third tick. A stopped machine changes nothing (R428):
a halted one answers itself, and a faulted one answers the fault it stopped with (log 10). -/
def systemTick (s : State) : Host.Outcome State Fault Refusal :=
  match s.cpu.runStatus with
  | .running => if s.bus.clockDiv = 2 then cpuStep (ppuTick s) else .next (ppuTick s)
  | .halted => .next s
  | .faulted f => .fault f

/-- At most `n` idle sub-steps, while cycles are owed and the machine runs (R157). -/
def drainIdle : Nat → State → Host.Outcome State Fault Refusal
  | 0, s => .next s
  | n + 1, s =>
    if 0 < s.cpu.idleCycles ∧ s.cpu.runStatus = .running then
      match cpuStep s with
      | .next t => drainIdle n t
      | .fault f => .fault f
      | .refused r => .refused r
    else .next s

/-- `run_instruction()` (R157): one sub-step, then idle sub-steps until none is owed. No PPU dot runs. -/
def runInstruction (s : State) : Host.Outcome State Fault Refusal :=
  match cpuStep s with
  | .next t => drainIdle t.cpu.idleCycles t
  | .fault f => .fault f
  | .refused r => .refused r

end Sys2Proof.Machine
end

