-- ==== Sys2Proof/Machine/Step.lean ====
section
/-!
DEFINITION. One step of the machine, and where its next instruction stands.
-/

namespace Sys2Proof.Machine

/-- One step is one system tick (R420). -/
def step (s : State) : Host.Outcome State Fault Refusal := systemTick s

/-- `s` with the instruction of a table word placed where the next step fetches, and ready to fetch it (log 11). -/
def State.withFetchWord (s : State) (nbits w : Nat) : State := placeInstruction (tableBytes nbits w) s

end Sys2Proof.Machine
end

