-- ==== Sys2Proof/Safety.lean ====
section
/-!
DEFINITION. What counts as a safe run, in the terms the claims use: when a bus access goes through, which fault it raises when
it does not, and the invariant of the machine.
-/

namespace Sys2Proof.Machine

/-! ### When an access goes through -/

/-- `$2007` or one of its mirrors (R75, R330). -/
abbrev IsDataPort (a : Word) : Prop := 0x2000 ≤ a.toNat ∧ a.toNat < 0x4000 ∧ a.toNat % 8 = 7

/-- A CPU read of `a` raises no fault: the one read that can is `$2007` with v at `$4000` or above (R71, R88, R342). -/
abbrev Readable (s : State) (a : Word) : Prop := IsDataPort a → s.ppu.v.toNat < 0x4000

/-- A CPU write of `a` raises no fault (R80, R87 to R89, R343). -/
abbrev Writable (s : State) (a : Word) : Prop :=
  a.toNat < 0x8000 ∧ (IsDataPort a → 0x2000 ≤ s.ppu.v.toNat ∧ s.ppu.v.toNat < 0x4000)

/-- The fault of a CPU write that is not `Writable` (R415, R417). -/
def writeFault (s : State) (a : Word) : Fault :=
  if 0x8000 ≤ a.toNat then .prgRomWrite a
  else if s.ppu.v.toNat < 0x2000 then .chrRomWrite s.ppu.v
  else .ppuAddressOutOfRange s.ppu.v

/-- The step of v after a `$2007` access (R344). -/
def vStep (s : State) : Nat := if s.ppu.ctrl.getLsbD 2 then 32 else 1

/-- A read and then a write of `a` raise no fault: at `$2007` the write finds v one step on (R139, R342 to R344). -/
abbrev Modifiable (s : State) (a : Word) : Prop :=
  a.toNat < 0x8000 ∧
    (IsDataPort a →
      s.ppu.v.toNat < 0x4000 ∧ 0x2000 ≤ s.ppu.v.toNat + vStep s ∧ s.ppu.v.toNat + vStep s < 0x4000)

/-- The run has not ended in a fault (R415, R428). -/
def State.unfaulted (s : State) : Bool :=
  match s.cpu.runStatus with
  | .running => true
  | .halted => true
  | .faulted _ => false

/-! ### The invariant -/

/-- A memory of `size` cells is in canonical form. -/
abbrev MemoryOk {w : Nat} (m : Memory w) (size : Nat) : Prop := m.wf = true ∧ m.fits size = true

/-- A cartridge's memories are in form and of the sizes of R30. -/
abbrev ConfigOk (c : Config) : Prop := MemoryOk c.prgRom c.prgSize.bytes ∧ MemoryOk c.chrRom 8192

/-- Every CPU-side memory is in form and of its size (R22, R23, R25). -/
abbrev BusMemoriesOk (b : Bus) : Prop := MemoryOk b.ram 2048 ∧ MemoryOk b.scratch 8160 ∧ MemoryOk b.prgRam 8192

/-- Every PPU-side memory is in form and of its size (R36 to R39, R43). -/
abbrev PpuMemoriesOk (mirroring : Mirroring) (p : Ppu) : Prop :=
  MemoryOk p.vram (vramSize mirroring) ∧ MemoryOk p.palette 32 ∧ MemoryOk p.oam 256 ∧ MemoryOk p.secOam 32 ∧
    MemoryOk p.frameBuffer 61440

/-- "in the live register, bit 5 is always 1 and bit 4 is always 0" (R16). -/
abbrev StatusOk (p : Byte) : Prop := p.getLsbD 5 = true ∧ p.getLsbD 4 = false

/-- The DMA cycles that are still to come (R307, R308): the alignment cycles and two for each byte not yet copied, less the
read already made of the byte at hand. -/
def dmaRemaining (d : OamDma) : Nat :=
  d.align + 2 * (256 - d.count) - (match d.phase with | .read => 0 | .write => 1)

/-- The ranges of R27, and: an active DMA has a byte to copy, and the CPU owes at least the cycles the DMA still needs. -/
abbrev DmaOk (d : OamDma) (idleCycles : Nat) : Prop :=
  d.count ≤ 256 ∧ d.align ≤ 2 ∧ (d.active = true → d.count < 256 ∧ dmaRemaining d ≤ idleCycles)

/-- The ranges of R39 and R40. -/
abbrev SpritesOk (p : Ppu) : Prop := p.secCount ≤ 8 ∧ p.slotCount ≤ 8

/-- The invariant that every step keeps. -/
def State.Inv (s : State) : Prop :=
  ConfigOk s.cfg ∧ BusMemoriesOk s.bus ∧ PpuMemoriesOk s.cfg.mirroring s.ppu ∧ StatusOk s.cpu.p ∧
    DmaOk s.bus.dma s.cpu.idleCycles ∧ SpritesOk s.ppu

end Sys2Proof.Machine
end

