-- ==== Sys2Proof/Certificates/Slice0/Obligations.lean ====
section
/-!
DEFINITION. The statements for the provers. The words they are written in come first: addresses, flags and results are given
there in arithmetic on natural numbers, from the rules, and not through the meanings they are stated about.
-/

namespace Sys2Proof.Claims

open Sys2Proof.Machine

/-! ### Bits of P -/

/-- Every bit of P but the listed ones is kept. -/
def KeepsBits (changed : List Nat) (p p' : Byte) : Prop := ∀ k, k < 8 → k ∉ changed → p'.getLsbD k = p.getLsbD k

/-- "`Z` ← result == 0; `N` ← bit 7 of result" (R138). -/
def ZnOf (v p' : Byte) : Prop := p'.getLsbD 1 = decide (v.toNat = 0) ∧ p'.getLsbD 7 = decide (128 ≤ v.toNat)

/-- P with C replaced. -/
def withCarry (c : Bool) (p : Byte) : Byte := BitVec.ofNat 8 (p.toNat / 2 * 2 + c.toNat)

/-! ### Encodings (R110 to R113) -/

/-- The opcode byte alone is the instruction. -/
def DecodesAlone (op : Byte) (i : Instr) : Prop := ∀ rest, decode (op :: rest) = .ok (i, rest)

/-- The opcode byte and one operand byte. -/
def DecodesByte (op : Byte) (make : Byte → Instr) : Prop := ∀ b rest, decode (op :: b :: rest) = .ok (make b, rest)

/-- The opcode byte and a little-endian word. -/
def DecodesWord (op : Byte) (make : Word → Instr) : Prop :=
  ∀ lo hi rest, decode (op :: lo :: hi :: rest) = .ok (make (BitVec.ofNat 16 (lo.toNat + 256 * hi.toNat)), rest)

/-- The opcode byte and a displacement in two's complement. -/
def DecodesBranch (op : Byte) (make : Int → Instr) : Prop :=
  ∀ b rest, decode (op :: b :: rest) = .ok (make (if b.toNat < 128 then (b.toNat : Int) else (b.toNat : Int) - 256), rest)

/-! ### Effective addresses (R143 to R151) -/

/-- ZeroPage (R143). -/
def zeroPage (b : Byte) : Word := BitVec.ofNat 16 b.toNat

/-- ZeroPage,X and ZeroPage,Y (R144, R145). -/
def zeroPageIndexed (b index : Byte) : Word := BitVec.ofNat 16 ((b.toNat + index.toNat) % 256)

/-- Absolute,X, Absolute,Y and the last step of Indirect,Y (R147, R148, R151). -/
def indexedBy (base : Word) (index : Byte) : Word := BitVec.ofNat 16 (base.toNat + index.toNat)

/-- The page-cross penalty of an indexed address (R136). -/
def crossing (base : Word) (index : Byte) : Nat := if base.toNat / 256 = (indexedBy base index).toNat / 256 then 0 else 1

/-- The word at a zero-page pointer, with the wrap in page 0 (R150, R151). -/
def pointerAt (s : State) (zp : Nat) : Word :=
  BitVec.ofNat 16 ((s.bus.ram.read (zp % 256)).toNat + 256 * (s.bus.ram.read ((zp + 1) % 256)).toNat)

/-! ### How an instruction ends -/

/-- From s1, what is left of an instruction: PC past `len` bytes, `idle` more cycles owed, and nothing but A, X, Y, SP and P
otherwise changed. -/
def Ends (len idle : Nat) (s1 t : State) : Prop :=
  t.cpu.pc = BitVec.ofNat 16 (s1.cpu.pc.toNat + len) ∧ t.cpu.idleCycles = s1.cpu.idleCycles + idle ∧
    t.cpu.cycles = s1.cpu.cycles ∧ t.cpu.runStatus = s1.cpu.runStatus ∧
    t.cfg = s1.cfg ∧ t.bus = s1.bus ∧ t.ppu = s1.ppu ∧ t.trace = s1.trace

/-- The run ends in a fault at this state (R415). -/
def faultedWith (f : Fault) (s : State) : State := { s with cpu := { s.cpu with runStatus := .faulted f } }

/-- What an instruction does to the registers: from the operand M and the CPU group before, the CPU group after. -/
abbrev Effect := Byte → Cpu → Cpu → Prop

/-- The immediate form of a read-class instruction. -/
def ImmediateForm (effect : Effect) (i : Instr) (m : Byte) (s : State) : Prop :=
  ∃ t, exec i s = .next t ∧ effect m s.cpu t.cpu ∧ Ends 2 1 s t

/-- A read-class form: one read of EA, the effect, the end; or the one fault a read can raise. -/
def ReadForm (effect : Effect) (i : Instr) (len idle : Nat) (ea : Word) (s : State) : Prop :=
  (Readable s ea →
    ∃ m s1 t, memRead ea s = .done m s1 ∧ exec i s = .next t ∧ effect m s.cpu t.cpu ∧ s1.cpu = s.cpu ∧ Ends len idle s1 t) ∧
  (¬Readable s ea → exec i s = .next (faultedWith (.ppuAddressOutOfRange s.ppu.v) s))

/-- A write-class form: one write of EA, the end; or the fault of the write. -/
def WriteForm (i : Instr) (len idle : Nat) (ea : Word) (v : Byte) (s : State) : Prop :=
  (Writable s ea →
    ∃ s1 t, memWrite ea v s = .done () s1 ∧ exec i s = .next t ∧
      t.cpu.a = s.cpu.a ∧ t.cpu.x = s.cpu.x ∧ t.cpu.y = s.cpu.y ∧ t.cpu.sp = s.cpu.sp ∧ t.cpu.p = s.cpu.p ∧
      s1.cpu.pc = s.cpu.pc ∧ Ends len idle s1 t) ∧
  (¬Writable s ea → exec i s = .next (faultedWith (writeFault s ea) s))

/-- A read-modify-write form: one read of EA, P as `before` gives it, one write of the result, then Z and N of the result;
or the fault of the read or of the write, with everything before it kept (R155). -/
def ModifyForm (result : Byte → Bool → Byte) (before : Byte → Byte → Byte) (i : Instr) (len idle : Nat) (ea : Word)
    (s : State) : Prop :=
  (Modifiable s ea →
    ∃ m s1 s2 t, memRead ea s = .done m s1 ∧
      memWrite ea (result m (s.cpu.p.getLsbD 0)) { s1 with cpu := { s1.cpu with p := before m s.cpu.p } } = .done () s2 ∧
      exec i s = .next t ∧ t.cpu.a = s.cpu.a ∧ t.cpu.x = s.cpu.x ∧ t.cpu.y = s.cpu.y ∧ t.cpu.sp = s.cpu.sp ∧
      ZnOf (result m (s.cpu.p.getLsbD 0)) t.cpu.p ∧ KeepsBits [1, 7] (before m s.cpu.p) t.cpu.p ∧
      s2.cpu.pc = s.cpu.pc ∧ Ends len idle s2 t) ∧
  (∀ m s1, memRead ea s = .done m s1 → ¬Writable s1 ea →
    exec i s = .next (faultedWith (writeFault s1 ea) { s1 with cpu := { s1.cpu with p := before m s.cpu.p } })) ∧
  (¬Readable s ea → exec i s = .next (faultedWith (.ppuAddressOutOfRange s.ppu.v) s))

/-- The accumulator form of a shift: A takes the result, C, Z and N as in the memory forms, no memory access. -/
def AccumulatorForm (result : Byte → Bool → Byte) (before : Byte → Byte → Byte) (i : Instr) (s : State) : Prop :=
  ∃ t, exec i s = .next t ∧ t.cpu.a = result s.cpu.a (s.cpu.p.getLsbD 0) ∧ t.cpu.x = s.cpu.x ∧ t.cpu.y = s.cpu.y ∧
    t.cpu.sp = s.cpu.sp ∧ ZnOf t.cpu.a t.cpu.p ∧ KeepsBits [1, 7] (before s.cpu.a s.cpu.p) t.cpu.p ∧ Ends 1 1 s t

/-! ### Effects of the read-class instructions -/

/-- `A <- M; setZN(A)` (R170). -/
def ldaEffect : Effect := fun m c d =>
  d.a = m ∧ d.x = c.x ∧ d.y = c.y ∧ d.sp = c.sp ∧ ZnOf m d.p ∧ KeepsBits [1, 7] c.p d.p

/-- `X <- M; setZN(X)` (R171). -/
def ldxEffect : Effect := fun m c d =>
  d.x = m ∧ d.a = c.a ∧ d.y = c.y ∧ d.sp = c.sp ∧ ZnOf m d.p ∧ KeepsBits [1, 7] c.p d.p

/-- `Y <- M; setZN(Y)` (R172). -/
def ldyEffect : Effect := fun m c d =>
  d.y = m ∧ d.a = c.a ∧ d.x = c.x ∧ d.sp = c.sp ∧ ZnOf m d.p ∧ KeepsBits [1, 7] c.p d.p

/-- ADC (R200): the sum in full, its carry, and V exactly when the signed sum leaves −128..127. -/
def adcEffect : Effect := fun m c d =>
  let sum := c.a.toNat + m.toNat + (c.p.getLsbD 0).toNat
  let signed := c.a.toInt + m.toInt + ((c.p.getLsbD 0).toNat : Int)
  d.a.toNat = sum % 256 ∧ d.x = c.x ∧ d.y = c.y ∧ d.sp = c.sp ∧
    d.p.getLsbD 0 = decide (255 < sum) ∧ d.p.getLsbD 6 = decide (signed < -128 ∨ 127 < signed) ∧
    ZnOf d.a d.p ∧ KeepsBits [0, 1, 6, 7] c.p d.p

/-- SBC (R201): the difference with borrow, C clear exactly when it borrows, V when the signed difference leaves −128..127. -/
def sbcEffect : Effect := fun m c d =>
  let borrow := 1 - (c.p.getLsbD 0).toNat
  let signed := c.a.toInt - m.toInt - (borrow : Int)
  d.a.toNat = (c.a.toNat + 256 - m.toNat - borrow) % 256 ∧ d.x = c.x ∧ d.y = c.y ∧ d.sp = c.sp ∧
    d.p.getLsbD 0 = decide (m.toNat + borrow ≤ c.a.toNat) ∧ d.p.getLsbD 6 = decide (signed < -128 ∨ 127 < signed) ∧
    ZnOf d.a d.p ∧ KeepsBits [0, 1, 6, 7] c.p d.p

/-- AND (R202), bit by bit. -/
def andEffect : Effect := fun m c d =>
  (∀ k, d.a.getLsbD k = (c.a.getLsbD k && m.getLsbD k)) ∧ d.x = c.x ∧ d.y = c.y ∧ d.sp = c.sp ∧
    ZnOf d.a d.p ∧ KeepsBits [1, 7] c.p d.p

/-- ORA (R203), bit by bit. -/
def oraEffect : Effect := fun m c d =>
  (∀ k, d.a.getLsbD k = (c.a.getLsbD k || m.getLsbD k)) ∧ d.x = c.x ∧ d.y = c.y ∧ d.sp = c.sp ∧
    ZnOf d.a d.p ∧ KeepsBits [1, 7] c.p d.p

/-- EOR (R204), bit by bit. -/
def eorEffect : Effect := fun m c d =>
  (∀ k, d.a.getLsbD k = (c.a.getLsbD k ^^ m.getLsbD k)) ∧ d.x = c.x ∧ d.y = c.y ∧ d.sp = c.sp ∧
    ZnOf d.a d.p ∧ KeepsBits [1, 7] c.p d.p

/-- BIT (R205): Z from A and M, V and N from M itself. -/
def bitEffect : Effect := fun m c d =>
  d.a = c.a ∧ d.x = c.x ∧ d.y = c.y ∧ d.sp = c.sp ∧
    (d.p.getLsbD 1 = true ↔ ∀ k, k < 8 → ¬(c.a.getLsbD k = true ∧ m.getLsbD k = true)) ∧
    d.p.getLsbD 6 = m.getLsbD 6 ∧ d.p.getLsbD 7 = m.getLsbD 7 ∧ KeepsBits [1, 6, 7] c.p d.p

/-- compare(reg, M) (47_compare.md): unsigned order, equality, and bit 7 of the difference. -/
def compareEffect (reg : Cpu → Byte) : Effect := fun m c d =>
  d.a = c.a ∧ d.x = c.x ∧ d.y = c.y ∧ d.sp = c.sp ∧
    d.p.getLsbD 0 = decide (m.toNat ≤ (reg c).toNat) ∧ d.p.getLsbD 1 = decide (m.toNat = (reg c).toNat) ∧
    d.p.getLsbD 7 = decide (128 ≤ ((reg c).toNat + 256 - m.toNat) % 256) ∧ KeepsBits [0, 1, 7] c.p d.p

/-! ### Results of the read-modify-write instructions -/

/-- INC and DEC change no flag before the store (R210, R211). -/
def keepsP : Byte → Byte → Byte := fun _ p => p

/-- ASL and ROL put bit 7 of M into C before the store (R220, R222). -/
def carryFromBit7 : Byte → Byte → Byte := fun m p => withCarry (decide (128 ≤ m.toNat)) p

/-- LSR and ROR put bit 0 of M into C before the store (R221, R223). -/
def carryFromBit0 : Byte → Byte → Byte := fun m p => withCarry (decide (m.toNat % 2 = 1)) p

def incResult : Byte → Bool → Byte := fun m _ => BitVec.ofNat 8 (m.toNat + 1)
def decResult : Byte → Bool → Byte := fun m _ => BitVec.ofNat 8 (m.toNat + 255)
def aslResult : Byte → Bool → Byte := fun m _ => BitVec.ofNat 8 (2 * m.toNat)
def lsrResult : Byte → Bool → Byte := fun m _ => BitVec.ofNat 8 (m.toNat / 2)
def rolResult : Byte → Bool → Byte := fun m c => BitVec.ofNat 8 (2 * m.toNat + c.toNat)
def rorResult : Byte → Bool → Byte := fun m c => BitVec.ofNat 8 (m.toNat / 2 + 128 * c.toNat)

/-! ### Register-only instructions -/

/-- An implied instruction that writes one register and perhaps P: it always completes. -/
def RegisterForm (effect : Cpu → Cpu → Prop) (i : Instr) (s : State) : Prop :=
  ∃ t, exec i s = .next t ∧ effect s.cpu t.cpu ∧ Ends 1 1 s t

/-- A flag instruction: one bit of P, no register. -/
def FlagForm (bit : Nat) (value : Bool) (i : Instr) (s : State) : Prop :=
  ∃ t, exec i s = .next t ∧ t.cpu.a = s.cpu.a ∧ t.cpu.x = s.cpu.x ∧ t.cpu.y = s.cpu.y ∧ t.cpu.sp = s.cpu.sp ∧
    t.cpu.p.getLsbD bit = value ∧ KeepsBits [bit] s.cpu.p t.cpu.p ∧ Ends 1 1 s t

/-! ### Branches and the stack -/

/-- A conditional branch on bit `bit` of P (48_branch_jump.md): where PC goes, what it costs, and that nothing else changes. -/
def BranchForm (bit : Nat) (want : Bool) (make : Int → Instr) : Prop :=
  ∀ (s : State) (disp : Int),
    let next := (s.cpu.pc.toNat + 2) % 65536
    let target := BitVec.ofInt 16 ((s.cpu.pc.toNat : Int) + 2 + disp)
    let idle := if next / 256 = target.toNat / 256 then 2 else 3
    (s.cpu.p.getLsbD bit = want →
      exec (make disp) s =
        .next { s with cpu := { s.cpu with pc := target, idleCycles := s.cpu.idleCycles + idle } }) ∧
    (s.cpu.p.getLsbD bit = !want →
      exec (make disp) s =
        .next { s with cpu := { s.cpu with pc := BitVec.ofNat 16 next, idleCycles := s.cpu.idleCycles + 1 } })

/-- The RAM cell `n` places below SP, where the (n+1)-th push lands (R137). -/
def stackCell (sp : Byte) (n : Nat) : Nat := 256 + (sp.toNat + 256 - n) % 256

/-- The RAM cell of the (n+1)-th pull (R137). -/
def pullCell (sp : Byte) (n : Nat) : Nat := 256 + (sp.toNat + 1 + n) % 256

/-- Nothing changed but the CPU group and the listed RAM cells. -/
def OnlyCpuAndRam (cells : List Nat) (s t : State) : Prop :=
  t.cfg = s.cfg ∧ t.ppu = s.ppu ∧ t.trace = s.trace ∧ t.bus = { s.bus with ram := t.bus.ram } ∧
    ∀ i, i ∉ cells → t.bus.ram.read i = s.bus.ram.read i

/-- The high and low bytes of a word, as numbers. -/
def highOf (w : Word) : Byte := BitVec.ofNat 8 (w.toNat / 256)
def lowOf (w : Word) : Byte := BitVec.ofNat 8 w.toNat

/-! ### Which instruction writes what -/

/-- The writers of A (R11). -/
def writesA : Instr → Bool
  | .ldaImm _ | .ldaZp _ | .ldaZpX _ | .ldaAbs _ | .ldaAbsX _ | .ldaAbsY _ | .ldaIndX _ | .ldaIndY _
  | .adcImm _ | .adcZp _ | .adcZpX _ | .adcAbs _ | .adcAbsX _ | .adcAbsY _ | .adcIndX _ | .adcIndY _
  | .sbcImm _ | .sbcZp _ | .sbcZpX _ | .sbcAbs _ | .sbcAbsX _ | .sbcAbsY _ | .sbcIndX _ | .sbcIndY _
  | .andImm _ | .andZp _ | .andZpX _ | .andAbs _ | .andAbsX _ | .andAbsY _ | .andIndX _ | .andIndY _
  | .oraImm _ | .oraZp _ | .oraZpX _ | .oraAbs _ | .oraAbsX _ | .oraAbsY _ | .oraIndX _ | .oraIndY _
  | .eorImm _ | .eorZp _ | .eorZpX _ | .eorAbs _ | .eorAbsX _ | .eorAbsY _ | .eorIndX _ | .eorIndY _
  | .txa | .tya | .pla | .aslAcc | .lsrAcc | .rolAcc | .rorAcc => true
  | _ => false

/-- The writers of X (R12). -/
def writesX : Instr → Bool
  | .ldxImm _ | .ldxZp _ | .ldxZpY _ | .ldxAbs _ | .ldxAbsY _ | .tax | .tsx | .inx
  | .dex => true
  | _ => false

/-- The writers of Y (R13). -/
def writesY : Instr → Bool
  | .ldyImm _ | .ldyZp _ | .ldyZpX _ | .ldyAbs _ | .ldyAbsX _ | .tay | .iny | .dey => true
  | _ => false

/-- The writers of SP: TXS and every push and pull (R14). -/
def writesSp : Instr → Bool
  | .txs | .pha | .php | .pla | .plp | .jsr _ | .rts | .brk
  | .rti => true
  | _ => false

/-- The writers of C (R17). -/
def writesC : Instr → Bool
  | .adcImm _ | .adcZp _ | .adcZpX _ | .adcAbs _ | .adcAbsX _ | .adcAbsY _ | .adcIndX _ | .adcIndY _
  | .sbcImm _ | .sbcZp _ | .sbcZpX _ | .sbcAbs _ | .sbcAbsX _ | .sbcAbsY _ | .sbcIndX _ | .sbcIndY _
  | .cmpImm _ | .cmpZp _ | .cmpZpX _ | .cmpAbs _ | .cmpAbsX _ | .cmpAbsY _ | .cmpIndX _ | .cmpIndY _
  | .cpxImm _ | .cpxZp _ | .cpxAbs _ | .cpyImm _ | .cpyZp _ | .cpyAbs _ | .aslAcc | .aslZp _
  | .aslZpX _ | .aslAbs _ | .aslAbsX _ | .lsrAcc | .lsrZp _ | .lsrZpX _ | .lsrAbs _ | .lsrAbsX _
  | .rolAcc | .rolZp _ | .rolZpX _ | .rolAbs _ | .rolAbsX _ | .rorAcc | .rorZp _ | .rorZpX _
  | .rorAbs _ | .rorAbsX _ | .clc | .sec | .plp | .rti => true
  | _ => false

/-- The writers of Z and N (R17). -/
def writesZN : Instr → Bool
  | .ldaImm _ | .ldaZp _ | .ldaZpX _ | .ldaAbs _ | .ldaAbsX _ | .ldaAbsY _ | .ldaIndX _ | .ldaIndY _
  | .ldxImm _ | .ldxZp _ | .ldxZpY _ | .ldxAbs _ | .ldxAbsY _ | .ldyImm _ | .ldyZp _ | .ldyZpX _
  | .ldyAbs _ | .ldyAbsX _ | .tax | .tay | .tsx | .txa | .tya | .pla
  | .adcImm _ | .adcZp _ | .adcZpX _ | .adcAbs _ | .adcAbsX _ | .adcAbsY _ | .adcIndX _ | .adcIndY _
  | .sbcImm _ | .sbcZp _ | .sbcZpX _ | .sbcAbs _ | .sbcAbsX _ | .sbcAbsY _ | .sbcIndX _ | .sbcIndY _
  | .andImm _ | .andZp _ | .andZpX _ | .andAbs _ | .andAbsX _ | .andAbsY _ | .andIndX _ | .andIndY _
  | .oraImm _ | .oraZp _ | .oraZpX _ | .oraAbs _ | .oraAbsX _ | .oraAbsY _ | .oraIndX _ | .oraIndY _
  | .eorImm _ | .eorZp _ | .eorZpX _ | .eorAbs _ | .eorAbsX _ | .eorAbsY _ | .eorIndX _ | .eorIndY _
  | .incZp _ | .incZpX _ | .incAbs _ | .incAbsX _ | .decZp _ | .decZpX _ | .decAbs _ | .decAbsX _
  | .inx | .iny | .dex | .dey | .aslAcc | .aslZp _ | .aslZpX _ | .aslAbs _
  | .aslAbsX _ | .lsrAcc | .lsrZp _ | .lsrZpX _ | .lsrAbs _ | .lsrAbsX _ | .rolAcc | .rolZp _
  | .rolZpX _ | .rolAbs _ | .rolAbsX _ | .rorAcc | .rorZp _ | .rorZpX _ | .rorAbs _ | .rorAbsX _
  | .cmpImm _ | .cmpZp _ | .cmpZpX _ | .cmpAbs _ | .cmpAbsX _ | .cmpAbsY _ | .cmpIndX _ | .cmpIndY _
  | .cpxImm _ | .cpxZp _ | .cpxAbs _ | .cpyImm _ | .cpyZp _ | .cpyAbs _ | .bitZp _ | .bitAbs _
  | .plp | .rti => true
  | _ => false

/-- The writers of V (R17). -/
def writesV : Instr → Bool
  | .adcImm _ | .adcZp _ | .adcZpX _ | .adcAbs _ | .adcAbsX _ | .adcAbsY _ | .adcIndX _ | .adcIndY _
  | .sbcImm _ | .sbcZp _ | .sbcZpX _ | .sbcAbs _ | .sbcAbsX _ | .sbcAbsY _ | .sbcIndX _ | .sbcIndY _
  | .bitZp _ | .bitAbs _ | .clv | .plp | .rti => true
  | _ => false

/-- The writers of I (R17). -/
def writesI : Instr → Bool
  | .sei | .cli | .plp | .rti | .brk => true
  | _ => false

/-- The writers of D (R17). -/
def writesD : Instr → Bool
  | .sed | .cld | .plp | .rti => true
  | _ => false

/-- The addresses an instruction writes: EA of the write and the read-modify-write class, and the stack slots of the pushes (R137, R139). -/
def storedAddresses : Instr → State → List Word
  | .staZp b, _ => [zeroPage b]
  | .staZpX b, s => [zeroPageIndexed b s.cpu.x]
  | .staAbs w, _ => [w]
  | .staAbsX w, s => [indexedBy w s.cpu.x]
  | .staAbsY w, s => [indexedBy w s.cpu.y]
  | .staIndX b, s => [pointerAt s (b.toNat + s.cpu.x.toNat)]
  | .staIndY b, s => [indexedBy (pointerAt s b.toNat) s.cpu.y]
  | .stxZp b, _ => [zeroPage b]
  | .stxZpY b, s => [zeroPageIndexed b s.cpu.y]
  | .stxAbs w, _ => [w]
  | .styZp b, _ => [zeroPage b]
  | .styZpX b, s => [zeroPageIndexed b s.cpu.x]
  | .styAbs w, _ => [w]
  | .aslZp b, _ => [zeroPage b]
  | .aslZpX b, s => [zeroPageIndexed b s.cpu.x]
  | .aslAbs w, _ => [w]
  | .aslAbsX w, s => [indexedBy w s.cpu.x]
  | .lsrZp b, _ => [zeroPage b]
  | .lsrZpX b, s => [zeroPageIndexed b s.cpu.x]
  | .lsrAbs w, _ => [w]
  | .lsrAbsX w, s => [indexedBy w s.cpu.x]
  | .rolZp b, _ => [zeroPage b]
  | .rolZpX b, s => [zeroPageIndexed b s.cpu.x]
  | .rolAbs w, _ => [w]
  | .rolAbsX w, s => [indexedBy w s.cpu.x]
  | .rorZp b, _ => [zeroPage b]
  | .rorZpX b, s => [zeroPageIndexed b s.cpu.x]
  | .rorAbs w, _ => [w]
  | .rorAbsX w, s => [indexedBy w s.cpu.x]
  | .incZp b, _ => [zeroPage b]
  | .incZpX b, s => [zeroPageIndexed b s.cpu.x]
  | .incAbs w, _ => [w]
  | .incAbsX w, s => [indexedBy w s.cpu.x]
  | .decZp b, _ => [zeroPage b]
  | .decZpX b, s => [zeroPageIndexed b s.cpu.x]
  | .decAbs w, _ => [w]
  | .decAbsX w, s => [indexedBy w s.cpu.x]
  | .pha, s => [BitVec.ofNat 16 (stackCell s.cpu.sp 0)]
  | .php, s => [BitVec.ofNat 16 (stackCell s.cpu.sp 0)]
  | .jsr _, s => [BitVec.ofNat 16 (stackCell s.cpu.sp 0), BitVec.ofNat 16 (stackCell s.cpu.sp 1)]
  | .brk, s =>
    [BitVec.ofNat 16 (stackCell s.cpu.sp 0), BitVec.ofNat 16 (stackCell s.cpu.sp 1), BitVec.ofNat 16 (stackCell s.cpu.sp 2)]
  | _, _ => []

/-- The addresses an instruction reads that may be registers: EA of the read and the read-modify-write class, and the pointer of JMP indirect (R139, R149). -/
def readAddresses : Instr → State → List Word
  | .ldaZp b, _ => [zeroPage b]
  | .ldaZpX b, s => [zeroPageIndexed b s.cpu.x]
  | .ldaAbs w, _ => [w]
  | .ldaAbsX w, s => [indexedBy w s.cpu.x]
  | .ldaAbsY w, s => [indexedBy w s.cpu.y]
  | .ldaIndX b, s => [pointerAt s (b.toNat + s.cpu.x.toNat)]
  | .ldaIndY b, s => [indexedBy (pointerAt s b.toNat) s.cpu.y]
  | .ldxZp b, _ => [zeroPage b]
  | .ldxZpY b, s => [zeroPageIndexed b s.cpu.y]
  | .ldxAbs w, _ => [w]
  | .ldxAbsY w, s => [indexedBy w s.cpu.y]
  | .ldyZp b, _ => [zeroPage b]
  | .ldyZpX b, s => [zeroPageIndexed b s.cpu.x]
  | .ldyAbs w, _ => [w]
  | .ldyAbsX w, s => [indexedBy w s.cpu.x]
  | .adcZp b, _ => [zeroPage b]
  | .adcZpX b, s => [zeroPageIndexed b s.cpu.x]
  | .adcAbs w, _ => [w]
  | .adcAbsX w, s => [indexedBy w s.cpu.x]
  | .adcAbsY w, s => [indexedBy w s.cpu.y]
  | .adcIndX b, s => [pointerAt s (b.toNat + s.cpu.x.toNat)]
  | .adcIndY b, s => [indexedBy (pointerAt s b.toNat) s.cpu.y]
  | .sbcZp b, _ => [zeroPage b]
  | .sbcZpX b, s => [zeroPageIndexed b s.cpu.x]
  | .sbcAbs w, _ => [w]
  | .sbcAbsX w, s => [indexedBy w s.cpu.x]
  | .sbcAbsY w, s => [indexedBy w s.cpu.y]
  | .sbcIndX b, s => [pointerAt s (b.toNat + s.cpu.x.toNat)]
  | .sbcIndY b, s => [indexedBy (pointerAt s b.toNat) s.cpu.y]
  | .andZp b, _ => [zeroPage b]
  | .andZpX b, s => [zeroPageIndexed b s.cpu.x]
  | .andAbs w, _ => [w]
  | .andAbsX w, s => [indexedBy w s.cpu.x]
  | .andAbsY w, s => [indexedBy w s.cpu.y]
  | .andIndX b, s => [pointerAt s (b.toNat + s.cpu.x.toNat)]
  | .andIndY b, s => [indexedBy (pointerAt s b.toNat) s.cpu.y]
  | .oraZp b, _ => [zeroPage b]
  | .oraZpX b, s => [zeroPageIndexed b s.cpu.x]
  | .oraAbs w, _ => [w]
  | .oraAbsX w, s => [indexedBy w s.cpu.x]
  | .oraAbsY w, s => [indexedBy w s.cpu.y]
  | .oraIndX b, s => [pointerAt s (b.toNat + s.cpu.x.toNat)]
  | .oraIndY b, s => [indexedBy (pointerAt s b.toNat) s.cpu.y]
  | .eorZp b, _ => [zeroPage b]
  | .eorZpX b, s => [zeroPageIndexed b s.cpu.x]
  | .eorAbs w, _ => [w]
  | .eorAbsX w, s => [indexedBy w s.cpu.x]
  | .eorAbsY w, s => [indexedBy w s.cpu.y]
  | .eorIndX b, s => [pointerAt s (b.toNat + s.cpu.x.toNat)]
  | .eorIndY b, s => [indexedBy (pointerAt s b.toNat) s.cpu.y]
  | .bitZp b, _ => [zeroPage b]
  | .bitAbs w, _ => [w]
  | .cmpZp b, _ => [zeroPage b]
  | .cmpZpX b, s => [zeroPageIndexed b s.cpu.x]
  | .cmpAbs w, _ => [w]
  | .cmpAbsX w, s => [indexedBy w s.cpu.x]
  | .cmpAbsY w, s => [indexedBy w s.cpu.y]
  | .cmpIndX b, s => [pointerAt s (b.toNat + s.cpu.x.toNat)]
  | .cmpIndY b, s => [indexedBy (pointerAt s b.toNat) s.cpu.y]
  | .cpxZp b, _ => [zeroPage b]
  | .cpxAbs w, _ => [w]
  | .cpyZp b, _ => [zeroPage b]
  | .cpyAbs w, _ => [w]
  | .aslZp b, _ => [zeroPage b]
  | .aslZpX b, s => [zeroPageIndexed b s.cpu.x]
  | .aslAbs w, _ => [w]
  | .aslAbsX w, s => [indexedBy w s.cpu.x]
  | .lsrZp b, _ => [zeroPage b]
  | .lsrZpX b, s => [zeroPageIndexed b s.cpu.x]
  | .lsrAbs w, _ => [w]
  | .lsrAbsX w, s => [indexedBy w s.cpu.x]
  | .rolZp b, _ => [zeroPage b]
  | .rolZpX b, s => [zeroPageIndexed b s.cpu.x]
  | .rolAbs w, _ => [w]
  | .rolAbsX w, s => [indexedBy w s.cpu.x]
  | .rorZp b, _ => [zeroPage b]
  | .rorZpX b, s => [zeroPageIndexed b s.cpu.x]
  | .rorAbs w, _ => [w]
  | .rorAbsX w, s => [indexedBy w s.cpu.x]
  | .incZp b, _ => [zeroPage b]
  | .incZpX b, s => [zeroPageIndexed b s.cpu.x]
  | .incAbs w, _ => [w]
  | .incAbsX w, s => [indexedBy w s.cpu.x]
  | .decZp b, _ => [zeroPage b]
  | .decZpX b, s => [zeroPageIndexed b s.cpu.x]
  | .decAbs w, _ => [w]
  | .decAbsX w, s => [indexedBy w s.cpu.x]
  | .jmpInd p, _ => [p, nextInPage p]
  | _, _ => []

/-- A PPU register or one of its mirrors (R75). -/
abbrev IsPpuRegister (a : Word) : Prop := 0x2000 ≤ a.toNat ∧ a.toNat < 0x4000

/-! ### Iterated steps -/

/-- `n` CPU sub-steps with no PPU dot between them. -/
def cpuSteps : Nat → State → Host.Outcome State Fault Refusal
  | 0, s => .next s
  | n + 1, s =>
    match cpuStep s with
    | .next t => cpuSteps n t
    | .fault f => .fault f
    | .refused r => .refused r

/-- The state after `n` reads of an address. -/
def afterReads (a : Word) : Nat → State → State
  | 0, s => s
  | n + 1, s =>
    match memRead a s with
    | .done _ t => afterReads a n t
    | .stopped _ t => t

/-- The raster position as the number of dots since (0, 0) (R360). -/
def rasterIndex (p : Ppu) : Nat := 341 * p.scanline.val + p.dot.val

/-! ### Shorthands of the statements -/

/-- PC, the cycles owed, and neither the cycle count nor the run status. -/
def Moves (pc idle : Nat) (s t : State) : Prop :=
  t.cpu.pc = BitVec.ofNat 16 pc ∧ t.cpu.idleCycles = s.cpu.idleCycles + idle ∧ t.cpu.cycles = s.cpu.cycles ∧
    t.cpu.runStatus = s.cpu.runStatus

/-- A, X and Y are kept. -/
def KeepsAXY (s t : State) : Prop := t.cpu.a = s.cpu.a ∧ t.cpu.x = s.cpu.x ∧ t.cpu.y = s.cpu.y

/-- SP after `n` pushes: it wraps modulo 256 (R14, R137). -/
def SpDown (n : Nat) (s t : State) : Prop := t.cpu.sp.toNat = (s.cpu.sp.toNat + 256 - n) % 256

/-- SP after `n` pulls (R14, R137). -/
def SpUp (n : Nat) (s t : State) : Prop := t.cpu.sp.toNat = (s.cpu.sp.toNat + n) % 256

/-- The byte that PHP and BRK push: P with bits 4 and 5 set (R18). -/
def PushedByInstruction (p b : Byte) : Prop := ∀ k, k < 8 → b.getLsbD k = (p.getLsbD k || decide (k = 4 ∨ k = 5))

/-- The byte that NMI entry pushes: P with bit 4 clear and bit 5 set (R18, R410). -/
def PushedByNmi (p b : Byte) : Prop := ∀ k, k < 8 → b.getLsbD k = (decide (k ≠ 4) && (p.getLsbD k || decide (k = 5)))

/-- What PLP and RTI put into P from a pulled byte: bit 4 clear and bit 5 set (R18). -/
def PulledInto (b p : Byte) : Prop := ∀ k, k < 8 → p.getLsbD k = (decide (k ≠ 4) && (b.getLsbD k || decide (k = 5)))

/-- The little-endian word of PRG ROM at CPU address `n` of `$8000–$FFFE` (R79, R81, R82). -/
def romWord (cfg : Config) (n : Nat) : Word :=
  BitVec.ofNat 16
    ((cfg.prgRom.read ((n - 0x8000) % cfg.prgSize.bytes)).toNat +
      256 * (cfg.prgRom.read ((n + 1 - 0x8000) % cfg.prgSize.bytes)).toNat)

/-- `$2000 + k` or one of its mirrors (R75). -/
abbrev PpuRegisterAt (k : Nat) (a : Word) : Prop := 0x2000 ≤ a.toNat ∧ a.toNat < 0x4000 ∧ a.toNat % 8 = k

/-- `$2000–$401F`: the addresses whose accesses are not plain memory (R72, R73), `$8000–$FFFF` apart. -/
abbrev IsRegister (a : Word) : Prop := 0x2000 ≤ a.toNat ∧ a.toNat < 0x4020

/-- The bytes, read through the bus one after the other from `a` on, with the machine left at `t` (R112). -/
def ReadsBytes : List Byte → Word → State → State → Prop
  | [], _, s, t => t = s
  | b :: rest, a, s, t => ∃ s1, memRead a s = .done b s1 ∧ ReadsBytes rest (a + 1) s1 t

/-- What the fetch sub-step does after the instruction (R156): a sub-step that did not fault is counted. -/
def counted : Host.Outcome State Fault Refusal → Host.Outcome State Fault Refusal
  | .next t => .next (countCompleted t)
  | .fault f => .fault f
  | .refused r => .refused r

/-- The illegal opcode values, in the order of R115. -/
def illegalOpcodes : List Nat :=
  [0x02, 0x03, 0x04, 0x07, 0x0B, 0x0C, 0x0F, 0x12, 0x13, 0x14, 0x17, 0x1A, 0x1B, 0x1C, 0x1F] ++
  [0x22, 0x23, 0x27, 0x2B, 0x2F, 0x32, 0x33, 0x34, 0x37, 0x3A, 0x3B, 0x3C, 0x3F, 0x42, 0x43] ++
  [0x44, 0x47, 0x4B, 0x4F, 0x52, 0x53, 0x54, 0x57, 0x5A, 0x5B, 0x5C, 0x5F, 0x62, 0x63, 0x64] ++
  [0x67, 0x6B, 0x6F, 0x72, 0x73, 0x74, 0x77, 0x7A, 0x7B, 0x7C, 0x7F, 0x80, 0x82, 0x83, 0x87] ++
  [0x89, 0x8B, 0x8F, 0x92, 0x93, 0x97, 0x9B, 0x9C, 0x9E, 0x9F, 0xA3, 0xA7, 0xAB, 0xAF, 0xB2] ++
  [0xB3, 0xB7, 0xBB, 0xBF, 0xC2, 0xC3, 0xC7, 0xCB, 0xCF, 0xD2, 0xD3, 0xD4, 0xD7, 0xDA, 0xDB] ++
  [0xDC, 0xDF, 0xE2, 0xE3, 0xE7, 0xEB, 0xEF, 0xF2, 0xF3, 0xF4, 0xF7, 0xFA, 0xFB, 0xFC, 0xFF]

/-- Sprite i of OAM is in range on a line: `0 <= s - y < h` (R376). -/
def OnLine (p : Ppu) (line i : Nat) : Prop :=
  (p.oam.read (4 * i)).toNat ≤ line ∧
    line < (p.oam.read (4 * i)).toNat + (if p.ctrl.getLsbD 5 then 16 else 8)

/-- The pattern address of a row of a sprite (R378, R379). -/
def spriteRow (p : Ppu) (line : Nat) (y tile attr : Byte) : Nat :=
  let h := if p.ctrl.getLsbD 5 then 16 else 8
  let row := if attr.getLsbD 7 then h - 1 - (line - y.toNat) else line - y.toNat
  if p.ctrl.getLsbD 5 then (tile.toNat % 2) * 4096 + (tile.toNat / 2 * 2 + row / 8) * 16 + row % 8
  else (if p.ctrl.getLsbD 3 then 4096 else 0) + tile.toNat * 16 + row

/-- The bits of a byte in reverse order when `flip` holds (R379). -/
def Flipped (flip : Bool) (b c : Byte) : Prop := ∀ k, k < 8 → c.getLsbD k = b.getLsbD (if flip then 7 - k else k)

/-- Tile fetches happen at these dots (R366). -/
abbrev FetchesAt (d : Nat) : Prop := (8 ≤ d ∧ d ≤ 256 ∧ d % 8 = 0) ∨ d = 328 ∨ d = 336

/-- `render_enabled()` (R363): mask bit 3 or 4 under Hardware gating, and always under Ignored. -/
abbrev RenderingOn (cfg : Config) (p : Ppu) : Prop :=
  cfg.maskGating = .ignored ∨ p.mask.getLsbD 3 = true ∨ p.mask.getLsbD 4 = true

/-- `val` of R381: a slot's value at output pixel x, its two plane bits at 7 − (x − X) on the columns X..X+7, and 0 off them. -/
def slotValue (x : Nat) (slot : Slot) : Nat :=
  if slot.x.toNat ≤ x ∧ x ≤ slot.x.toNat + 7 then
    2 * (slot.patHi.getLsbD (7 - (x - slot.x.toNat))).toNat + (slot.patLo.getLsbD (7 - (x - slot.x.toNat))).toNat
  else 0

/-- The state after a write that goes through. -/
def afterWrite (a : Word) (d : Byte) (s : State) : State :=
  match memWrite a d s with
  | .done _ t => t
  | .stopped _ t => t

end Sys2Proof.Claims

open Sys2Proof Sys2Proof.Machine Sys2Proof.Claims

/-- Decoding the bytes of a well-formed instruction gives it back, whatever bytes follow, with every operand at every value (R110 to R113). "It never reads a byte past the instruction's own length" (R117): the bytes after it come back untouched. -/
def Obligations.DecodeInvertsEncode : Prop :=
  ∀ (i : Instr) (rest : List Byte), i.wellFormed = true → decode (encode i ++ rest) = .ok (i, rest)

/-- Each word has one meaning: an instruction that the decoder reads is well-formed and its own bytes are the ones read (R110, R113, R117). -/
def Obligations.EncodeInvertsDecode : Prop :=
  ∀ (bytes rest : List Byte) (i : Instr), decode bytes = .ok (i, rest) → i.wellFormed = true ∧ encode i ++ rest = bytes

/-- R115. The trace line is R424's: "A faulting `UnknownOpcode` fetch still emits its line". -/
def Obligations.IllegalOpcodes : Prop :=
  illegalOpcodes.length = 105 ∧
    (∀ (op : Byte) (rest : List Byte), op.toNat ∈ illegalOpcodes → decode (op :: rest) = .error (.illegalOpcode op)) ∧
    (∀ (op b1 b2 : Byte), op.toNat ∉ illegalOpcodes → ∃ i rest, decode [op, b1, b2] = .ok (i, rest)) ∧
    (∀ (op : Byte) (s s1 : State), op.toNat ∈ illegalOpcodes → memRead s.cpu.pc s = .done op s1 →
      executeOne s = .next (faultedWith (.unknownOpcode op s.cpu.pc) (emitTrace op s1)))

/-- A word of each family, written out from R113. -/
def Obligations.SampleWordsDecode : Prop :=
  decode [0xA9, 0x42] = .ok (.ldaImm 0x42, []) ∧ decode [0x91, 0x80] = .ok (.staIndY 0x80, []) ∧
    decode [0xBA] = .ok (.tsx, []) ∧ decode [0x08] = .ok (.php, []) ∧ decode [0x7D, 0xF0, 0x12] = .ok (.adcAbsX 0x12F0, []) ∧
    decode [0xDE, 0x00, 0x03] = .ok (.decAbsX 0x0300, []) ∧ decode [0x6A] = .ok (.rorAcc, []) ∧
    decode [0xCC, 0x34, 0x12] = .ok (.cpyAbs 0x1234, []) ∧ decode [0xF0, 0xFA] = .ok (.beq (-6), []) ∧
    decode [0x6C, 0xFF, 0x02] = .ok (.jmpInd 0x02FF, []) ∧ decode [0x40] = .ok (.rti, [])

/-- A step that reaches a fetch sub-step is: the PPU's part of the tick, NMI entry if one is pending, the bytes of the instruction read through the bus at PC with the trace line emitted, `exec` of the decoded instruction, and the cycle counted (R130, R132, R133, R420). -/
def Obligations.StepRunsTheDecodedInstruction : Prop :=
  ∀ (s t : State) (op : Byte) (more : List Byte) (i : Instr),
    s.cpu.runStatus = .running → s.bus.clockDiv.val = 2 → s.cpu.idleCycles = 0 →
    decode (op :: more) = .ok (i, []) →
    (let p := ppuTick s
     let q := if p.bus.nmiGenerated then nmiEntry p else p
     ReadsBytes (op :: more) q.cpu.pc q t →
     step s = counted (exec i { t with trace := traceLine op q.cpu :: q.trace }))

/-- R420: the tick's parts and their order. -/
def Obligations.SystemTick : Prop :=
  ∀ s : State, s.cpu.runStatus = .running →
    (s.bus.clockDiv.val ≠ 2 → step s = .next (ppuTick s)) ∧
    (s.bus.clockDiv.val = 2 → step s = cpuStep (ppuTick s)) ∧
    ∃ n, (ppuTick s).cpu = s.cpu ∧ (ppuTick s).cfg = s.cfg ∧ (ppuTick s).trace = s.trace ∧
      (ppuTick s).ppu = ppuAdvance (dotWork s.cfg s.ppu s.ppu.scanline.val s.ppu.dot.val) ∧
      (ppuTick s).bus = { s.bus with nmiGenerated := (ppuTick s).bus.nmiGenerated, clockDiv := n } ∧
      n.val = (s.bus.clockDiv.val + 1) % 3

/-- R428. That the stopped machine of a fault answers `.fault` is the model's choice (log 10). -/
def Obligations.StoppedMachine : Prop :=
  (∀ s : State, s.cpu.runStatus = .halted → step s = .next s ∧ cpuStep s = .next s ∧ runInstruction s = .next s) ∧
    (∀ (s : State) (f : Fault), s.cpu.runStatus = .faulted f →
      step s = .fault f ∧ cpuStep s = .next s ∧ runInstruction s = .next s)

/-- R156, R157: what a sub-step and a run of sub-steps add to `cycles`. -/
def Obligations.CycleCount : Prop :=
  (∀ s t : State, s.cpu.runStatus = .running → cpuStep s = .next t →
      t.cpu.cycles = s.cpu.cycles + (if t.unfaulted then 1 else 0)) ∧
    (∀ s u t : State, cpuStep s = .next u → runInstruction s = .next t → t.cpu.runStatus = .running →
      t.cpu.idleCycles = 0 ∧ t.cpu.cycles = u.cpu.cycles + u.cpu.idleCycles)

/-- The invariant of the model holds at reset, with no image loaded and with any cartridge whose memories are in form (log 1). -/
def Obligations.InvariantAtReset : Prop :=
  State.reset.Inv ∧ ∀ cfg : Config, ConfigOk cfg → (State.resetWith cfg).Inv

/-- Every step keeps the invariant, from every state that meets it: among other things "in the live register, bit 5 is always 1 and bit 4 is always 0. Every write of P keeps this invariant" (R16), and the CPU owes at least the cycles an active DMA still needs (R308). -/
def Obligations.StepKeepsInvariant : Prop :=
  ∀ s t : State, s.Inv → step s = .next t → t.Inv

/-- Every instruction answers a next state from every state. "`Halted` is entered only by BRK when BRK_MODE = Halt" (R19); a fault leaves PC at the instruction (R155); the configuration never changes: "No instruction changes them" (R10). -/
def Obligations.InstructionOutcome : Prop :=
  (∀ (i : Instr) (s : State), ∃ t, exec i s = .next t ∧ t.cfg = s.cfg ∧ t.trace = s.trace ∧
      t.cpu.cycles = s.cpu.cycles ∧
      (t.cpu.runStatus = s.cpu.runStatus ∨ (i = .brk ∧ s.cfg.brkMode = .halt ∧ t.cpu.runStatus = .halted) ∨
        ∃ f, t.cpu.runStatus = .faulted f ∧ t.cpu.pc = s.cpu.pc ∧ t.cpu.idleCycles = s.cpu.idleCycles)) ∧
    ∀ s t : State, step s = .next t → t.cfg = s.cfg

/-- R440, with the PC of R441 and the nestest override of R442. The empty trace is the model's choice, no rule of the spec (log 5). -/
def Obligations.ResetValues : Prop :=
  ∀ cfg : Config,
    let s := State.resetWith cfg
    s.cfg = cfg ∧ s.trace = [] ∧
    (s.cpu.a = 0 ∧ s.cpu.x = 0 ∧ s.cpu.y = 0 ∧ s.cpu.sp = 0xFD ∧ s.cpu.p = 0x24 ∧ s.cpu.pc = romWord cfg 0xFFFC ∧
      s.cpu.runStatus = .running ∧ s.cpu.cycles = 7 ∧ s.cpu.idleCycles = 0) ∧
    (∀ n, s.bus.ram.read n = 0 ∧ s.bus.scratch.read n = 0 ∧ s.bus.prgRam.read n = 0) ∧
    (s.bus.nmiGenerated = false ∧ s.bus.pad0 = ⟨0, 0⟩ ∧ s.bus.pad1 = ⟨0, 0⟩ ∧ s.bus.strobe = false ∧
      s.bus.dma = ⟨false, 0, 0, 0, .read, 0⟩ ∧ s.bus.clockDiv.val = 0) ∧
    (s.ppu.ctrl = 0 ∧ s.ppu.mask = 0 ∧ s.ppu.status = ⟨false, false, false⟩ ∧ s.ppu.oamAddr = 0 ∧ s.ppu.readBuffer = 0) ∧
    (∀ n, s.ppu.vram.read n = 0 ∧ s.ppu.palette.read n = 0 ∧ s.ppu.oam.read n = 0 ∧ s.ppu.secOam.read n = 0 ∧
      s.ppu.frameBuffer.read n = 0) ∧
    (s.ppu.secCount = 0 ∧ s.ppu.slotCount = 0 ∧ (∀ k ∈ s.ppu.secIndex.toList, k = 0) ∧
      (∀ slot ∈ s.ppu.slots.toList, slot = ⟨0, 0, 0, 0, false⟩) ∧ s.ppu.bgA = ⟨0, 0, 0⟩ ∧ s.ppu.bgB = ⟨0, 0, 0⟩) ∧
    (s.ppu.scanline.val = 0 ∧ s.ppu.dot.val = 0 ∧ s.ppu.frameCount = 0 ∧ s.ppu.v = 0 ∧ s.ppu.t = 0 ∧ s.ppu.fineX = 0 ∧
      s.ppu.w = false) ∧
    s.nestestBoot = { s with cpu := { s.cpu with pc := 0xC000, sp := 0xFD, p := 0x24, cycles := 7 } }

/-- R30, R429: which images are refused, and what a load keeps of one. Byte offsets are into the image. -/
def Obligations.CartridgeLoad : Prop :=
  ∀ (brkMode : BrkMode) (maskGating : MaskGating) (image : List Byte),
    let hdr := fun k => (image.getD k 0).toNat
    let start := 16 + (if hdr 6 / 4 % 2 = 1 then 512 else 0)
    let prg := 16384 * hdr 4
    ((∃ cfg, loadCartridge brkMode maskGating image = .ok cfg) ↔
      (image.take 4 = [0x4E, 0x45, 0x53, 0x1A] ∧ hdr 7 % 16 = 0 ∧ hdr 7 / 16 = 0 ∧ hdr 6 / 16 = 0 ∧
        (hdr 4 = 1 ∨ hdr 4 = 2) ∧ hdr 5 = 1 ∧ start + prg + 8192 ≤ image.length)) ∧
    ∀ cfg, loadCartridge brkMode maskGating image = .ok cfg →
      cfg.brkMode = brkMode ∧ cfg.maskGating = maskGating ∧ cfg.prgSize.bytes = prg ∧
      cfg.mirroring = (if hdr 6 / 8 % 2 = 1 then .fourScreen else if hdr 6 % 2 = 1 then .vertical else .horizontal) ∧
      (∀ n, n < prg → cfg.prgRom.read n = image.getD (start + n) 0) ∧
      (∀ n, n < 8192 → cfg.chrRom.read n = image.getD (start + prg + n) 0) ∧ ConfigOk cfg

/-- LDA (R170), in every addressing mode: the encoding, the result, what is left unchanged, the cycles, and the one fault. -/
def Obligations.LoadA : Prop :=
    (DecodesByte 0xA9 .ldaImm ∧
      DecodesByte 0xA5 .ldaZp ∧
      DecodesByte 0xB5 .ldaZpX ∧
      DecodesWord 0xAD .ldaAbs ∧
      DecodesWord 0xBD .ldaAbsX ∧
      DecodesWord 0xB9 .ldaAbsY ∧
      DecodesByte 0xA1 .ldaIndX ∧
      DecodesByte 0xB1 .ldaIndY) ∧
    (∀ s : State,
      (∀ m, ImmediateForm ldaEffect (.ldaImm m) m s) ∧
      (∀ b, ReadForm ldaEffect (.ldaZp b) 2 2 (zeroPage b) s) ∧
      (∀ b, ReadForm ldaEffect (.ldaZpX b) 2 3 (zeroPageIndexed b s.cpu.x) s) ∧
      (∀ w, ReadForm ldaEffect (.ldaAbs w) 3 3 w s) ∧
      (∀ w, ReadForm ldaEffect (.ldaAbsX w) 3 (3 + crossing w s.cpu.x) (indexedBy w s.cpu.x) s) ∧
      (∀ w, ReadForm ldaEffect (.ldaAbsY w) 3 (3 + crossing w s.cpu.y) (indexedBy w s.cpu.y) s) ∧
      (∀ b, ReadForm ldaEffect (.ldaIndX b) 2 5 (pointerAt s (b.toNat + s.cpu.x.toNat)) s) ∧
      (∀ b, ReadForm ldaEffect (.ldaIndY b) 2 (4 + crossing (pointerAt s b.toNat) s.cpu.y) (indexedBy (pointerAt s b.toNat) s.cpu.y) s))

/-- LDX (R171), in every addressing mode: the encoding, the result, what is left unchanged, the cycles, and the one fault. -/
def Obligations.LoadX : Prop :=
    (DecodesByte 0xA2 .ldxImm ∧
      DecodesByte 0xA6 .ldxZp ∧
      DecodesByte 0xB6 .ldxZpY ∧
      DecodesWord 0xAE .ldxAbs ∧
      DecodesWord 0xBE .ldxAbsY) ∧
    (∀ s : State,
      (∀ m, ImmediateForm ldxEffect (.ldxImm m) m s) ∧
      (∀ b, ReadForm ldxEffect (.ldxZp b) 2 2 (zeroPage b) s) ∧
      (∀ b, ReadForm ldxEffect (.ldxZpY b) 2 3 (zeroPageIndexed b s.cpu.y) s) ∧
      (∀ w, ReadForm ldxEffect (.ldxAbs w) 3 3 w s) ∧
      (∀ w, ReadForm ldxEffect (.ldxAbsY w) 3 (3 + crossing w s.cpu.y) (indexedBy w s.cpu.y) s))

/-- LDY (R172), in every addressing mode: the encoding, the result, what is left unchanged, the cycles, and the one fault. -/
def Obligations.LoadY : Prop :=
    (DecodesByte 0xA0 .ldyImm ∧
      DecodesByte 0xA4 .ldyZp ∧
      DecodesByte 0xB4 .ldyZpX ∧
      DecodesWord 0xAC .ldyAbs ∧
      DecodesWord 0xBC .ldyAbsX) ∧
    (∀ s : State,
      (∀ m, ImmediateForm ldyEffect (.ldyImm m) m s) ∧
      (∀ b, ReadForm ldyEffect (.ldyZp b) 2 2 (zeroPage b) s) ∧
      (∀ b, ReadForm ldyEffect (.ldyZpX b) 2 3 (zeroPageIndexed b s.cpu.x) s) ∧
      (∀ w, ReadForm ldyEffect (.ldyAbs w) 3 3 w s) ∧
      (∀ w, ReadForm ldyEffect (.ldyAbsX w) 3 (3 + crossing w s.cpu.x) (indexedBy w s.cpu.x) s))

/-- STA, STX and STY (R173 to R175) in every addressing mode. -/
def Obligations.Stores : Prop :=
    (DecodesByte 0x85 .staZp ∧
      DecodesByte 0x95 .staZpX ∧
      DecodesWord 0x8D .staAbs ∧
      DecodesWord 0x9D .staAbsX ∧
      DecodesWord 0x99 .staAbsY ∧
      DecodesByte 0x81 .staIndX ∧
      DecodesByte 0x91 .staIndY) ∧
    (∀ s : State,
      (∀ b, WriteForm (.staZp b) 2 2 (zeroPage b) s.cpu.a s) ∧
      (∀ b, WriteForm (.staZpX b) 2 3 (zeroPageIndexed b s.cpu.x) s.cpu.a s) ∧
      (∀ w, WriteForm (.staAbs w) 3 3 w s.cpu.a s) ∧
      (∀ w, WriteForm (.staAbsX w) 3 4 (indexedBy w s.cpu.x) s.cpu.a s) ∧
      (∀ w, WriteForm (.staAbsY w) 3 4 (indexedBy w s.cpu.y) s.cpu.a s) ∧
      (∀ b, WriteForm (.staIndX b) 2 5 (pointerAt s (b.toNat + s.cpu.x.toNat)) s.cpu.a s) ∧
      (∀ b, WriteForm (.staIndY b) 2 5 (indexedBy (pointerAt s b.toNat) s.cpu.y) s.cpu.a s)) ∧
    (DecodesByte 0x86 .stxZp ∧
      DecodesByte 0x96 .stxZpY ∧
      DecodesWord 0x8E .stxAbs) ∧
    (∀ s : State,
      (∀ b, WriteForm (.stxZp b) 2 2 (zeroPage b) s.cpu.x s) ∧
      (∀ b, WriteForm (.stxZpY b) 2 3 (zeroPageIndexed b s.cpu.y) s.cpu.x s) ∧
      (∀ w, WriteForm (.stxAbs w) 3 3 w s.cpu.x s)) ∧
    (DecodesByte 0x84 .styZp ∧
      DecodesByte 0x94 .styZpX ∧
      DecodesWord 0x8C .styAbs) ∧
    (∀ s : State,
      (∀ b, WriteForm (.styZp b) 2 2 (zeroPage b) s.cpu.y s) ∧
      (∀ b, WriteForm (.styZpX b) 2 3 (zeroPageIndexed b s.cpu.x) s.cpu.y s) ∧
      (∀ w, WriteForm (.styAbs w) 3 3 w s.cpu.y s))

/-- The transfers (R180 to R185). -/
def Obligations.Transfers : Prop :=
    (DecodesAlone 0xAA .tax ∧
      DecodesAlone 0xA8 .tay ∧
      DecodesAlone 0xBA .tsx ∧
      DecodesAlone 0x8A .txa ∧
      DecodesAlone 0x9A .txs ∧
      DecodesAlone 0x98 .tya) ∧
    (∀ s : State,
      RegisterForm (fun c d => d.x = c.a ∧ d.a = c.a ∧ d.y = c.y ∧ d.sp = c.sp ∧ ZnOf d.x d.p ∧ KeepsBits [1, 7] c.p d.p) .tax s ∧
      RegisterForm (fun c d => d.y = c.a ∧ d.a = c.a ∧ d.x = c.x ∧ d.sp = c.sp ∧ ZnOf d.y d.p ∧ KeepsBits [1, 7] c.p d.p) .tay s ∧
      RegisterForm (fun c d => d.x = c.sp ∧ d.a = c.a ∧ d.y = c.y ∧ d.sp = c.sp ∧ ZnOf d.x d.p ∧ KeepsBits [1, 7] c.p d.p) .tsx s ∧
      RegisterForm (fun c d => d.a = c.x ∧ d.x = c.x ∧ d.y = c.y ∧ d.sp = c.sp ∧ ZnOf d.a d.p ∧ KeepsBits [1, 7] c.p d.p) .txa s ∧
      RegisterForm (fun c d => d.sp = c.x ∧ d.a = c.a ∧ d.x = c.x ∧ d.y = c.y ∧ d.p = c.p) .txs s ∧
      RegisterForm (fun c d => d.a = c.y ∧ d.x = c.x ∧ d.y = c.y ∧ d.sp = c.sp ∧ ZnOf d.a d.p ∧ KeepsBits [1, 7] c.p d.p) .tya s)

/-- PHA and PHP (R190, R191). -/
def Obligations.Pushes : Prop :=
    (DecodesAlone 0x48 .pha ∧ DecodesAlone 0x08 .php) ∧
    (∀ s : State,
      (∃ t, exec .pha s = .next t ∧ t.bus.ram.read (stackCell s.cpu.sp 0) = s.cpu.a ∧
        OnlyCpuAndRam [stackCell s.cpu.sp 0] s t ∧ SpDown 1 s t ∧ KeepsAXY s t ∧ t.cpu.p = s.cpu.p ∧
        Moves (s.cpu.pc.toNat + 1) 2 s t) ∧
      (∃ t, exec .php s = .next t ∧ PushedByInstruction s.cpu.p (t.bus.ram.read (stackCell s.cpu.sp 0)) ∧
        OnlyCpuAndRam [stackCell s.cpu.sp 0] s t ∧ SpDown 1 s t ∧ KeepsAXY s t ∧ t.cpu.p = s.cpu.p ∧
        Moves (s.cpu.pc.toNat + 1) 2 s t))

/-- PLA and PLP (R192, R193). -/
def Obligations.Pulls : Prop :=
    (DecodesAlone 0x68 .pla ∧ DecodesAlone 0x28 .plp) ∧
    (∀ s : State,
      (∃ t, exec .pla s = .next t ∧ t.cpu.a = s.bus.ram.read (pullCell s.cpu.sp 0) ∧ t.cpu.x = s.cpu.x ∧ t.cpu.y = s.cpu.y ∧
        ZnOf t.cpu.a t.cpu.p ∧ KeepsBits [1, 7] s.cpu.p t.cpu.p ∧ SpUp 1 s t ∧ t.bus = s.bus ∧ OnlyCpuAndRam [] s t ∧
        Moves (s.cpu.pc.toNat + 1) 3 s t) ∧
      (∃ t, exec .plp s = .next t ∧ PulledInto (s.bus.ram.read (pullCell s.cpu.sp 0)) t.cpu.p ∧ KeepsAXY s t ∧ SpUp 1 s t ∧
        t.bus = s.bus ∧ OnlyCpuAndRam [] s t ∧ Moves (s.cpu.pc.toNat + 1) 3 s t))

/-- ADC (R200) in every addressing mode. V is stated as the rule says in words: A and M have one sign and the result the other, that is, the signed sum leaves −128..127. D plays no part. -/
def Obligations.AddWithCarry : Prop :=
    (DecodesByte 0x69 .adcImm ∧
      DecodesByte 0x65 .adcZp ∧
      DecodesByte 0x75 .adcZpX ∧
      DecodesWord 0x6D .adcAbs ∧
      DecodesWord 0x7D .adcAbsX ∧
      DecodesWord 0x79 .adcAbsY ∧
      DecodesByte 0x61 .adcIndX ∧
      DecodesByte 0x71 .adcIndY) ∧
    (∀ s : State,
      (∀ m, ImmediateForm adcEffect (.adcImm m) m s) ∧
      (∀ b, ReadForm adcEffect (.adcZp b) 2 2 (zeroPage b) s) ∧
      (∀ b, ReadForm adcEffect (.adcZpX b) 2 3 (zeroPageIndexed b s.cpu.x) s) ∧
      (∀ w, ReadForm adcEffect (.adcAbs w) 3 3 w s) ∧
      (∀ w, ReadForm adcEffect (.adcAbsX w) 3 (3 + crossing w s.cpu.x) (indexedBy w s.cpu.x) s) ∧
      (∀ w, ReadForm adcEffect (.adcAbsY w) 3 (3 + crossing w s.cpu.y) (indexedBy w s.cpu.y) s) ∧
      (∀ b, ReadForm adcEffect (.adcIndX b) 2 5 (pointerAt s (b.toNat + s.cpu.x.toNat)) s) ∧
      (∀ b, ReadForm adcEffect (.adcIndY b) 2 (4 + crossing (pointerAt s b.toNat) s.cpu.y) (indexedBy (pointerAt s b.toNat) s.cpu.y) s))

/-- SBC (R201) in every addressing mode, stated as a subtraction with borrow and not through ADC. -/
def Obligations.SubtractWithBorrow : Prop :=
    (DecodesByte 0xE9 .sbcImm ∧
      DecodesByte 0xE5 .sbcZp ∧
      DecodesByte 0xF5 .sbcZpX ∧
      DecodesWord 0xED .sbcAbs ∧
      DecodesWord 0xFD .sbcAbsX ∧
      DecodesWord 0xF9 .sbcAbsY ∧
      DecodesByte 0xE1 .sbcIndX ∧
      DecodesByte 0xF1 .sbcIndY) ∧
    (∀ s : State,
      (∀ m, ImmediateForm sbcEffect (.sbcImm m) m s) ∧
      (∀ b, ReadForm sbcEffect (.sbcZp b) 2 2 (zeroPage b) s) ∧
      (∀ b, ReadForm sbcEffect (.sbcZpX b) 2 3 (zeroPageIndexed b s.cpu.x) s) ∧
      (∀ w, ReadForm sbcEffect (.sbcAbs w) 3 3 w s) ∧
      (∀ w, ReadForm sbcEffect (.sbcAbsX w) 3 (3 + crossing w s.cpu.x) (indexedBy w s.cpu.x) s) ∧
      (∀ w, ReadForm sbcEffect (.sbcAbsY w) 3 (3 + crossing w s.cpu.y) (indexedBy w s.cpu.y) s) ∧
      (∀ b, ReadForm sbcEffect (.sbcIndX b) 2 5 (pointerAt s (b.toNat + s.cpu.x.toNat)) s) ∧
      (∀ b, ReadForm sbcEffect (.sbcIndY b) 2 (4 + crossing (pointerAt s b.toNat) s.cpu.y) (indexedBy (pointerAt s b.toNat) s.cpu.y) s))

/-- AND, ORA and EOR (R202 to R204) in every addressing mode. -/
def Obligations.Logic : Prop :=
    (DecodesByte 0x29 .andImm ∧
      DecodesByte 0x25 .andZp ∧
      DecodesByte 0x35 .andZpX ∧
      DecodesWord 0x2D .andAbs ∧
      DecodesWord 0x3D .andAbsX ∧
      DecodesWord 0x39 .andAbsY ∧
      DecodesByte 0x21 .andIndX ∧
      DecodesByte 0x31 .andIndY) ∧
    (∀ s : State,
      (∀ m, ImmediateForm andEffect (.andImm m) m s) ∧
      (∀ b, ReadForm andEffect (.andZp b) 2 2 (zeroPage b) s) ∧
      (∀ b, ReadForm andEffect (.andZpX b) 2 3 (zeroPageIndexed b s.cpu.x) s) ∧
      (∀ w, ReadForm andEffect (.andAbs w) 3 3 w s) ∧
      (∀ w, ReadForm andEffect (.andAbsX w) 3 (3 + crossing w s.cpu.x) (indexedBy w s.cpu.x) s) ∧
      (∀ w, ReadForm andEffect (.andAbsY w) 3 (3 + crossing w s.cpu.y) (indexedBy w s.cpu.y) s) ∧
      (∀ b, ReadForm andEffect (.andIndX b) 2 5 (pointerAt s (b.toNat + s.cpu.x.toNat)) s) ∧
      (∀ b, ReadForm andEffect (.andIndY b) 2 (4 + crossing (pointerAt s b.toNat) s.cpu.y) (indexedBy (pointerAt s b.toNat) s.cpu.y) s)) ∧
    (DecodesByte 0x09 .oraImm ∧
      DecodesByte 0x05 .oraZp ∧
      DecodesByte 0x15 .oraZpX ∧
      DecodesWord 0x0D .oraAbs ∧
      DecodesWord 0x1D .oraAbsX ∧
      DecodesWord 0x19 .oraAbsY ∧
      DecodesByte 0x01 .oraIndX ∧
      DecodesByte 0x11 .oraIndY) ∧
    (∀ s : State,
      (∀ m, ImmediateForm oraEffect (.oraImm m) m s) ∧
      (∀ b, ReadForm oraEffect (.oraZp b) 2 2 (zeroPage b) s) ∧
      (∀ b, ReadForm oraEffect (.oraZpX b) 2 3 (zeroPageIndexed b s.cpu.x) s) ∧
      (∀ w, ReadForm oraEffect (.oraAbs w) 3 3 w s) ∧
      (∀ w, ReadForm oraEffect (.oraAbsX w) 3 (3 + crossing w s.cpu.x) (indexedBy w s.cpu.x) s) ∧
      (∀ w, ReadForm oraEffect (.oraAbsY w) 3 (3 + crossing w s.cpu.y) (indexedBy w s.cpu.y) s) ∧
      (∀ b, ReadForm oraEffect (.oraIndX b) 2 5 (pointerAt s (b.toNat + s.cpu.x.toNat)) s) ∧
      (∀ b, ReadForm oraEffect (.oraIndY b) 2 (4 + crossing (pointerAt s b.toNat) s.cpu.y) (indexedBy (pointerAt s b.toNat) s.cpu.y) s)) ∧
    (DecodesByte 0x49 .eorImm ∧
      DecodesByte 0x45 .eorZp ∧
      DecodesByte 0x55 .eorZpX ∧
      DecodesWord 0x4D .eorAbs ∧
      DecodesWord 0x5D .eorAbsX ∧
      DecodesWord 0x59 .eorAbsY ∧
      DecodesByte 0x41 .eorIndX ∧
      DecodesByte 0x51 .eorIndY) ∧
    (∀ s : State,
      (∀ m, ImmediateForm eorEffect (.eorImm m) m s) ∧
      (∀ b, ReadForm eorEffect (.eorZp b) 2 2 (zeroPage b) s) ∧
      (∀ b, ReadForm eorEffect (.eorZpX b) 2 3 (zeroPageIndexed b s.cpu.x) s) ∧
      (∀ w, ReadForm eorEffect (.eorAbs w) 3 3 w s) ∧
      (∀ w, ReadForm eorEffect (.eorAbsX w) 3 (3 + crossing w s.cpu.x) (indexedBy w s.cpu.x) s) ∧
      (∀ w, ReadForm eorEffect (.eorAbsY w) 3 (3 + crossing w s.cpu.y) (indexedBy w s.cpu.y) s) ∧
      (∀ b, ReadForm eorEffect (.eorIndX b) 2 5 (pointerAt s (b.toNat + s.cpu.x.toNat)) s) ∧
      (∀ b, ReadForm eorEffect (.eorIndY b) 2 (4 + crossing (pointerAt s b.toNat) s.cpu.y) (indexedBy (pointerAt s b.toNat) s.cpu.y) s))

/-- BIT (R205) in both addressing modes. -/
def Obligations.BitTest : Prop :=
    (DecodesByte 0x24 .bitZp ∧
      DecodesWord 0x2C .bitAbs) ∧
    (∀ s : State,
      (∀ b, ReadForm bitEffect (.bitZp b) 2 2 (zeroPage b) s) ∧
      (∀ w, ReadForm bitEffect (.bitAbs w) 3 3 w s))

/-- INC and DEC (R210, R211) in every addressing mode. -/
def Obligations.IncDecMemory : Prop :=
    (DecodesByte 0xE6 .incZp ∧
      DecodesByte 0xF6 .incZpX ∧
      DecodesWord 0xEE .incAbs ∧
      DecodesWord 0xFE .incAbsX) ∧
    (∀ s : State,
      (∀ b, ModifyForm incResult keepsP (.incZp b) 2 4 (zeroPage b) s) ∧
      (∀ b, ModifyForm incResult keepsP (.incZpX b) 2 5 (zeroPageIndexed b s.cpu.x) s) ∧
      (∀ w, ModifyForm incResult keepsP (.incAbs w) 3 5 w s) ∧
      (∀ w, ModifyForm incResult keepsP (.incAbsX w) 3 6 (indexedBy w s.cpu.x) s)) ∧
    (DecodesByte 0xC6 .decZp ∧
      DecodesByte 0xD6 .decZpX ∧
      DecodesWord 0xCE .decAbs ∧
      DecodesWord 0xDE .decAbsX) ∧
    (∀ s : State,
      (∀ b, ModifyForm decResult keepsP (.decZp b) 2 4 (zeroPage b) s) ∧
      (∀ b, ModifyForm decResult keepsP (.decZpX b) 2 5 (zeroPageIndexed b s.cpu.x) s) ∧
      (∀ w, ModifyForm decResult keepsP (.decAbs w) 3 5 w s) ∧
      (∀ w, ModifyForm decResult keepsP (.decAbsX w) 3 6 (indexedBy w s.cpu.x) s))

/-- INX, INY, DEX and DEY (R212 to R215). -/
def Obligations.IncDecRegisters : Prop :=
    (DecodesAlone 0xE8 .inx ∧
      DecodesAlone 0xC8 .iny ∧
      DecodesAlone 0xCA .dex ∧
      DecodesAlone 0x88 .dey) ∧
    (∀ s : State,
      RegisterForm (fun c d => d.x.toNat = (c.x.toNat + 1) % 256 ∧ d.a = c.a ∧ d.y = c.y ∧ d.sp = c.sp ∧ ZnOf d.x d.p ∧ KeepsBits [1, 7] c.p d.p) .inx s ∧
      RegisterForm (fun c d => d.y.toNat = (c.y.toNat + 1) % 256 ∧ d.a = c.a ∧ d.x = c.x ∧ d.sp = c.sp ∧ ZnOf d.y d.p ∧ KeepsBits [1, 7] c.p d.p) .iny s ∧
      RegisterForm (fun c d => d.x.toNat = (c.x.toNat + 255) % 256 ∧ d.a = c.a ∧ d.y = c.y ∧ d.sp = c.sp ∧ ZnOf d.x d.p ∧ KeepsBits [1, 7] c.p d.p) .dex s ∧
      RegisterForm (fun c d => d.y.toNat = (c.y.toNat + 255) % 256 ∧ d.a = c.a ∧ d.x = c.x ∧ d.sp = c.sp ∧ ZnOf d.y d.p ∧ KeepsBits [1, 7] c.p d.p) .dey s)

/-- ASL and ROL (R220, R222), on A and on memory. -/
def Obligations.ShiftsLeft : Prop :=
    (DecodesAlone 0x0A .aslAcc ∧
      DecodesByte 0x06 .aslZp ∧
      DecodesByte 0x16 .aslZpX ∧
      DecodesWord 0x0E .aslAbs ∧
      DecodesWord 0x1E .aslAbsX) ∧
    (∀ s : State,
      AccumulatorForm aslResult carryFromBit7 .aslAcc s ∧
      (∀ b, ModifyForm aslResult carryFromBit7 (.aslZp b) 2 4 (zeroPage b) s) ∧
      (∀ b, ModifyForm aslResult carryFromBit7 (.aslZpX b) 2 5 (zeroPageIndexed b s.cpu.x) s) ∧
      (∀ w, ModifyForm aslResult carryFromBit7 (.aslAbs w) 3 5 w s) ∧
      (∀ w, ModifyForm aslResult carryFromBit7 (.aslAbsX w) 3 6 (indexedBy w s.cpu.x) s)) ∧
    (DecodesAlone 0x2A .rolAcc ∧
      DecodesByte 0x26 .rolZp ∧
      DecodesByte 0x36 .rolZpX ∧
      DecodesWord 0x2E .rolAbs ∧
      DecodesWord 0x3E .rolAbsX) ∧
    (∀ s : State,
      AccumulatorForm rolResult carryFromBit7 .rolAcc s ∧
      (∀ b, ModifyForm rolResult carryFromBit7 (.rolZp b) 2 4 (zeroPage b) s) ∧
      (∀ b, ModifyForm rolResult carryFromBit7 (.rolZpX b) 2 5 (zeroPageIndexed b s.cpu.x) s) ∧
      (∀ w, ModifyForm rolResult carryFromBit7 (.rolAbs w) 3 5 w s) ∧
      (∀ w, ModifyForm rolResult carryFromBit7 (.rolAbsX w) 3 6 (indexedBy w s.cpu.x) s))

/-- LSR and ROR (R221, R223), on A and on memory. -/
def Obligations.ShiftsRight : Prop :=
    (DecodesAlone 0x4A .lsrAcc ∧
      DecodesByte 0x46 .lsrZp ∧
      DecodesByte 0x56 .lsrZpX ∧
      DecodesWord 0x4E .lsrAbs ∧
      DecodesWord 0x5E .lsrAbsX) ∧
    (∀ s : State,
      AccumulatorForm lsrResult carryFromBit0 .lsrAcc s ∧
      (∀ b, ModifyForm lsrResult carryFromBit0 (.lsrZp b) 2 4 (zeroPage b) s) ∧
      (∀ b, ModifyForm lsrResult carryFromBit0 (.lsrZpX b) 2 5 (zeroPageIndexed b s.cpu.x) s) ∧
      (∀ w, ModifyForm lsrResult carryFromBit0 (.lsrAbs w) 3 5 w s) ∧
      (∀ w, ModifyForm lsrResult carryFromBit0 (.lsrAbsX w) 3 6 (indexedBy w s.cpu.x) s)) ∧
    (DecodesAlone 0x6A .rorAcc ∧
      DecodesByte 0x66 .rorZp ∧
      DecodesByte 0x76 .rorZpX ∧
      DecodesWord 0x6E .rorAbs ∧
      DecodesWord 0x7E .rorAbsX) ∧
    (∀ s : State,
      AccumulatorForm rorResult carryFromBit0 .rorAcc s ∧
      (∀ b, ModifyForm rorResult carryFromBit0 (.rorZp b) 2 4 (zeroPage b) s) ∧
      (∀ b, ModifyForm rorResult carryFromBit0 (.rorZpX b) 2 5 (zeroPageIndexed b s.cpu.x) s) ∧
      (∀ w, ModifyForm rorResult carryFromBit0 (.rorAbs w) 3 5 w s) ∧
      (∀ w, ModifyForm rorResult carryFromBit0 (.rorAbsX w) 3 6 (indexedBy w s.cpu.x) s))

/-- CMP, CPX and CPY (R230 to R232) in every addressing mode. -/
def Obligations.Compares : Prop :=
    (DecodesByte 0xC9 .cmpImm ∧
      DecodesByte 0xC5 .cmpZp ∧
      DecodesByte 0xD5 .cmpZpX ∧
      DecodesWord 0xCD .cmpAbs ∧
      DecodesWord 0xDD .cmpAbsX ∧
      DecodesWord 0xD9 .cmpAbsY ∧
      DecodesByte 0xC1 .cmpIndX ∧
      DecodesByte 0xD1 .cmpIndY) ∧
    (∀ s : State,
      (∀ m, ImmediateForm (compareEffect (·.a)) (.cmpImm m) m s) ∧
      (∀ b, ReadForm (compareEffect (·.a)) (.cmpZp b) 2 2 (zeroPage b) s) ∧
      (∀ b, ReadForm (compareEffect (·.a)) (.cmpZpX b) 2 3 (zeroPageIndexed b s.cpu.x) s) ∧
      (∀ w, ReadForm (compareEffect (·.a)) (.cmpAbs w) 3 3 w s) ∧
      (∀ w, ReadForm (compareEffect (·.a)) (.cmpAbsX w) 3 (3 + crossing w s.cpu.x) (indexedBy w s.cpu.x) s) ∧
      (∀ w, ReadForm (compareEffect (·.a)) (.cmpAbsY w) 3 (3 + crossing w s.cpu.y) (indexedBy w s.cpu.y) s) ∧
      (∀ b, ReadForm (compareEffect (·.a)) (.cmpIndX b) 2 5 (pointerAt s (b.toNat + s.cpu.x.toNat)) s) ∧
      (∀ b, ReadForm (compareEffect (·.a)) (.cmpIndY b) 2 (4 + crossing (pointerAt s b.toNat) s.cpu.y) (indexedBy (pointerAt s b.toNat) s.cpu.y) s)) ∧
    (DecodesByte 0xE0 .cpxImm ∧
      DecodesByte 0xE4 .cpxZp ∧
      DecodesWord 0xEC .cpxAbs) ∧
    (∀ s : State,
      (∀ m, ImmediateForm (compareEffect (·.x)) (.cpxImm m) m s) ∧
      (∀ b, ReadForm (compareEffect (·.x)) (.cpxZp b) 2 2 (zeroPage b) s) ∧
      (∀ w, ReadForm (compareEffect (·.x)) (.cpxAbs w) 3 3 w s)) ∧
    (DecodesByte 0xC0 .cpyImm ∧
      DecodesByte 0xC4 .cpyZp ∧
      DecodesWord 0xCC .cpyAbs) ∧
    (∀ s : State,
      (∀ m, ImmediateForm (compareEffect (·.y)) (.cpyImm m) m s) ∧
      (∀ b, ReadForm (compareEffect (·.y)) (.cpyZp b) 2 2 (zeroPage b) s) ∧
      (∀ w, ReadForm (compareEffect (·.y)) (.cpyAbs w) 3 3 w s))

/-- The eight branches (R240 to R247): the condition, the target and the fall-through, and the cycles. -/
def Obligations.Branches : Prop :=
    (DecodesBranch 0x90 .bcc ∧
      DecodesBranch 0xB0 .bcs ∧
      DecodesBranch 0xF0 .beq ∧
      DecodesBranch 0x30 .bmi ∧
      DecodesBranch 0xD0 .bne ∧
      DecodesBranch 0x10 .bpl ∧
      DecodesBranch 0x50 .bvc ∧
      DecodesBranch 0x70 .bvs) ∧
    BranchForm 0 false .bcc ∧
    BranchForm 0 true .bcs ∧
    BranchForm 1 true .beq ∧
    BranchForm 7 true .bmi ∧
    BranchForm 1 false .bne ∧
    BranchForm 7 false .bpl ∧
    BranchForm 6 false .bvc ∧
    BranchForm 6 true .bvs

/-- JMP (R248), absolute and indirect: the high byte of the pointer comes from the same page. -/
def Obligations.Jump : Prop :=
    (DecodesWord 0x4C .jmpAbs ∧ DecodesWord 0x6C .jmpInd) ∧
    (∀ (s : State) (w : Word),
      exec (.jmpAbs w) s = .next { s with cpu := { s.cpu with pc := w, idleCycles := s.cpu.idleCycles + 2 } }) ∧
    (∀ (s : State) (p : Word),
      let next := BitVec.ofNat 16 (p.toNat / 256 * 256 + (p.toNat + 1) % 256)
      (Readable s p ∧ Readable s next →
        ∃ lo hi s1 s2, memRead p s = .done lo s1 ∧ memRead next s1 = .done hi s2 ∧ s2.cpu = s.cpu ∧
          exec (.jmpInd p) s =
            .next { s2 with cpu := { s2.cpu with pc := BitVec.ofNat 16 (lo.toNat + 256 * hi.toNat),
                                                 idleCycles := s2.cpu.idleCycles + 4 } }) ∧
      (¬Readable s p → exec (.jmpInd p) s = .next (faultedWith (.ppuAddressOutOfRange s.ppu.v) s)) ∧
      (∀ lo s1, memRead p s = .done lo s1 → ¬Readable s next →
        exec (.jmpInd p) s = .next (faultedWith (.ppuAddressOutOfRange s.ppu.v) s1)))

/-- JSR and RTS (R249, R250), and that a JSR and then an RTS come back: "JSR at address a, then RTS, continues at a + 3 with SP restored". -/
def Obligations.Subroutines : Prop :=
    (DecodesWord 0x20 .jsr ∧ DecodesAlone 0x60 .rts) ∧
    (∀ (s : State) (w : Word),
      let ret := BitVec.ofNat 16 (s.cpu.pc.toNat + 2)
      ∃ t, exec (.jsr w) s = .next t ∧ t.bus.ram.read (stackCell s.cpu.sp 0) = highOf ret ∧
        t.bus.ram.read (stackCell s.cpu.sp 1) = lowOf ret ∧
        OnlyCpuAndRam [stackCell s.cpu.sp 0, stackCell s.cpu.sp 1] s t ∧ SpDown 2 s t ∧ KeepsAXY s t ∧
        t.cpu.p = s.cpu.p ∧ Moves w.toNat 5 s t) ∧
    (∀ s : State,
      let lo := s.bus.ram.read (pullCell s.cpu.sp 0)
      let hi := s.bus.ram.read (pullCell s.cpu.sp 1)
      ∃ t, exec .rts s = .next t ∧ t.bus = s.bus ∧ OnlyCpuAndRam [] s t ∧ SpUp 2 s t ∧ KeepsAXY s t ∧
        t.cpu.p = s.cpu.p ∧ Moves (lo.toNat + 256 * hi.toNat + 1) 5 s t) ∧
    (∀ (s t : State) (w : Word), exec (.jsr w) s = .next t →
      ∃ u, exec .rts t = .next u ∧ u.cpu.pc = BitVec.ofNat 16 (s.cpu.pc.toNat + 3) ∧ u.cpu.sp = s.cpu.sp)

/-- The flag instructions and NOP (R260 to R267). -/
def Obligations.FlagsAndNop : Prop :=
    (DecodesAlone 0x18 .clc ∧
      DecodesAlone 0xD8 .cld ∧
      DecodesAlone 0x58 .cli ∧
      DecodesAlone 0xB8 .clv ∧
      DecodesAlone 0x38 .sec ∧
      DecodesAlone 0xF8 .sed ∧
      DecodesAlone 0x78 .sei ∧
      DecodesAlone 0xEA .nop) ∧
    (∀ s : State,
      FlagForm 0 false .clc s ∧
      FlagForm 3 false .cld s ∧
      FlagForm 2 false .cli s ∧
      FlagForm 6 false .clv s ∧
      FlagForm 0 true .sec s ∧
      FlagForm 3 true .sed s ∧
      FlagForm 2 true .sei s ∧
      exec .nop s =
        .next { s with cpu := { s.cpu with pc := BitVec.ofNat 16 (s.cpu.pc.toNat + 1), idleCycles := s.cpu.idleCycles + 1 } })

/-- BRK (R268), in both modes of BRK_MODE. -/
def Obligations.Break : Prop :=
    DecodesAlone 0x00 .brk ∧
    (∀ s : State, s.cfg.brkMode = .halt →
      exec .brk s = .next { s with cpu := { s.cpu with runStatus := .halted, idleCycles := s.cpu.idleCycles + 6 } }) ∧
    (∀ s : State, s.cfg.brkMode = .vector →
      let ret := BitVec.ofNat 16 (s.cpu.pc.toNat + 2)
      ∃ t, exec .brk s = .next t ∧ t.bus.ram.read (stackCell s.cpu.sp 0) = highOf ret ∧
        t.bus.ram.read (stackCell s.cpu.sp 1) = lowOf ret ∧
        PushedByInstruction s.cpu.p (t.bus.ram.read (stackCell s.cpu.sp 2)) ∧
        OnlyCpuAndRam [stackCell s.cpu.sp 0, stackCell s.cpu.sp 1, stackCell s.cpu.sp 2] s t ∧ SpDown 3 s t ∧
        KeepsAXY s t ∧ t.cpu.p.getLsbD 2 = true ∧ KeepsBits [2] s.cpu.p t.cpu.p ∧
        Moves (romWord s.cfg 0xFFFE).toNat 6 s t)

/-- RTI (R269): P, then PC, with no +1. -/
def Obligations.ReturnFromInterrupt : Prop :=
    DecodesAlone 0x40 .rti ∧
    (∀ s : State,
      let lo := s.bus.ram.read (pullCell s.cpu.sp 1)
      let hi := s.bus.ram.read (pullCell s.cpu.sp 2)
      ∃ t, exec .rti s = .next t ∧ PulledInto (s.bus.ram.read (pullCell s.cpu.sp 0)) t.cpu.p ∧ SpUp 3 s t ∧
        KeepsAXY s t ∧ t.bus = s.bus ∧ OnlyCpuAndRam [] s t ∧ Moves (lo.toNat + 256 * hi.toNat) 5 s t)

/-- NMI entry (R410) and when it is taken (R132): at a fetch sub-step, before the opcode read, and the same sub-step goes on to the handler's first instruction. I does not mask it (R411). -/
def Obligations.NmiEntry : Prop :=
    (∀ s : State,
      let t := nmiEntry s
      t.bus.ram.read (stackCell s.cpu.sp 0) = highOf s.cpu.pc ∧ t.bus.ram.read (stackCell s.cpu.sp 1) = lowOf s.cpu.pc ∧
      PushedByNmi s.cpu.p (t.bus.ram.read (stackCell s.cpu.sp 2)) ∧
      (∀ n, n ∉ [stackCell s.cpu.sp 0, stackCell s.cpu.sp 1, stackCell s.cpu.sp 2] → t.bus.ram.read n = s.bus.ram.read n) ∧
      t.bus = { s.bus with ram := t.bus.ram, nmiGenerated := false } ∧ t.cfg = s.cfg ∧ t.ppu = s.ppu ∧ t.trace = s.trace ∧
      SpDown 3 s t ∧ KeepsAXY s t ∧ t.cpu.p.getLsbD 2 = true ∧ KeepsBits [2] s.cpu.p t.cpu.p ∧
      Moves (romWord s.cfg 0xFFFA).toNat 7 s t) ∧
    (∀ s : State, s.cpu.runStatus = .running → s.cpu.idleCycles = 0 →
      (s.bus.nmiGenerated = true → cpuStep s = counted (executeOne (nmiEntry s))) ∧
      (s.bus.nmiGenerated = false → cpuStep s = counted (executeOne s))) ∧
    (∀ s t : State, s.cpu.runStatus = .running → 0 < s.cpu.idleCycles → cpuStep s = .next t →
      t.bus.nmiGenerated = s.bus.nmiGenerated)

/-- R414, and the RTI example of R269: an RTI right after an NMI entry or a BRK restores what was saved. The premise is R16's invariant of P, stated of every step by StepKeepsInvariant. -/
def Obligations.InterruptsReturn : Prop :=
  ∀ s : State, StatusOk s.cpu.p →
    (∃ t, exec .rti (nmiEntry s) = .next t ∧ t.cpu.pc = s.cpu.pc ∧ t.cpu.p = s.cpu.p ∧ t.cpu.sp = s.cpu.sp ∧
      KeepsAXY s t) ∧
    (s.cfg.brkMode = .vector →
      ∃ u t, exec .brk s = .next u ∧ exec .rti u = .next t ∧ t.cpu.pc = BitVec.ofNat 16 (s.cpu.pc.toNat + 2) ∧
        t.cpu.p = s.cpu.p ∧ t.cpu.sp = s.cpu.sp ∧ KeepsAXY s t)

/-- The writers of each register and flag (R11 to R14, R17): "Instructions not listed for a flag leave it unchanged." It holds of faulting executions too. -/
def Obligations.RegisterAndFlagFrame : Prop :=
  ∀ (i : Instr) (s t : State), exec i s = .next t →
    (writesA i = false → t.cpu.a = s.cpu.a) ∧ (writesX i = false → t.cpu.x = s.cpu.x) ∧
    (writesY i = false → t.cpu.y = s.cpu.y) ∧ (writesSp i = false → t.cpu.sp = s.cpu.sp) ∧
    (writesC i = false → t.cpu.p.getLsbD 0 = s.cpu.p.getLsbD 0) ∧
    (writesZN i = false → t.cpu.p.getLsbD 1 = s.cpu.p.getLsbD 1) ∧
    (writesI i = false → t.cpu.p.getLsbD 2 = s.cpu.p.getLsbD 2) ∧
    (writesD i = false → t.cpu.p.getLsbD 3 = s.cpu.p.getLsbD 3) ∧
    (writesV i = false → t.cpu.p.getLsbD 6 = s.cpu.p.getLsbD 6) ∧
    (writesZN i = false → t.cpu.p.getLsbD 7 = s.cpu.p.getLsbD 7) ∧
    (i ≠ .plp → i ≠ .rti → t.cpu.p.getLsbD 4 = s.cpu.p.getLsbD 4 ∧ t.cpu.p.getLsbD 5 = s.cpu.p.getLsbD 5)

/-- Every byte that the CPU can read back (RAM, scratch, PRG RAM, PRG ROM) is unchanged except at the addresses the instruction stores to, computed from the state before it (R139, R153). An address and its mirror are one byte (R74, R79), hence the comparison of regions. -/
def Obligations.MemoryFrame : Prop :=
  ∀ (i : Instr) (s t : State), exec i s = .next t →
    ∀ a : Word, (∀ e ∈ storedAddresses i s, regionOf s.cfg a ≠ regionOf s.cfg e) → peek t a = peek s a

/-- What an instruction leaves of the PPU and the bus devices (R85, R96, R153, R311): everything, unless it reads or writes a register; and the raster, the output, the divider, the NMI flag and the buttons even then. -/
def Obligations.DeviceFrame : Prop :=
  ∀ (i : Instr) (s t : State), exec i s = .next t →
    ((∀ e ∈ readAddresses i s ++ storedAddresses i s, ¬IsRegister e) →
      t.ppu = s.ppu ∧ t.bus = { s.bus with ram := t.bus.ram, scratch := t.bus.scratch, prgRam := t.bus.prgRam }) ∧
    ((∀ e ∈ readAddresses i s ++ storedAddresses i s, ¬IsPpuRegister e) → t.ppu = s.ppu) ∧
    ((∀ e ∈ storedAddresses i s, ¬PpuRegisterAt 7 e) → t.ppu.vram = s.ppu.vram ∧ t.ppu.palette = s.ppu.palette) ∧
    ((∀ e ∈ storedAddresses i s, ¬PpuRegisterAt 4 e) → t.ppu.oam = s.ppu.oam) ∧
    ((∀ e ∈ storedAddresses i s, e ≠ 0x4014) → t.bus.dma = s.bus.dma) ∧
    (t.ppu.scanline = s.ppu.scanline ∧ t.ppu.dot = s.ppu.dot ∧ t.ppu.frameBuffer = s.ppu.frameBuffer ∧
      t.ppu.frameCount = s.ppu.frameCount ∧ t.ppu.secOam = s.ppu.secOam ∧ t.ppu.secCount = s.ppu.secCount ∧
      t.ppu.secIndex = s.ppu.secIndex ∧ t.ppu.slots = s.ppu.slots ∧ t.ppu.slotCount = s.ppu.slotCount ∧
      t.ppu.bgA = s.ppu.bgA ∧ t.ppu.bgB = s.ppu.bgB ∧ t.ppu.status.sprite0Hit = s.ppu.status.sprite0Hit ∧
      t.ppu.status.spriteOverflow = s.ppu.status.spriteOverflow ∧ t.bus.clockDiv = s.bus.clockDiv ∧
      t.bus.nmiGenerated = s.bus.nmiGenerated ∧ t.bus.pad0.buttons = s.bus.pad0.buttons ∧
      t.bus.pad1.buttons = s.bus.pad1.buttons)

/-- RAM, PPU register and PRG ROM mirroring, and the write to PRG ROM (R74, R75, R79, R80). -/
def Obligations.MirrorsAndRom : Prop :=
    (∀ (s : State) (a : Word) (d : Byte), a.toNat < 0x2000 →
      memRead a s = .done (s.bus.ram.read (a.toNat % 0x800)) s ∧ memRead a s = memRead (BitVec.ofNat 16 (a.toNat % 0x800)) s ∧
      memWrite a d s = memWrite (BitVec.ofNat 16 (a.toNat % 0x800)) d s) ∧
    (∀ (s : State) (a : Word) (d : Byte), IsPpuRegister a →
      memRead a s = memRead (BitVec.ofNat 16 (0x2000 + (a.toNat - 0x2000) % 8)) s ∧
      memWrite a d s = memWrite (BitVec.ofNat 16 (0x2000 + (a.toNat - 0x2000) % 8)) d s) ∧
    (∀ (s : State) (a : Word) (d : Byte), 0x8000 ≤ a.toNat →
      memRead a s = .done (s.cfg.prgRom.read ((a.toNat - 0x8000) % s.cfg.prgSize.bytes)) s ∧
      (s.cfg.prgSize = .kib16 → memRead (a ^^^ 0x4000) s = memRead a s) ∧
      memWrite a d s = .stopped (.prgRomWrite a) s)

/-- R74, R77 and R78: RAM, scratch and PRG RAM are read-write memory. -/
def Obligations.ReadAfterWrite : Prop :=
  ∀ (s : State) (a : Word) (d : Byte), a.toNat < 0x2000 ∨ (0x4020 ≤ a.toNat ∧ a.toNat < 0x8000) →
    ∃ t, memWrite a d s = .done () t ∧ memRead a t = .done d t ∧
      (∀ b : Word, regionOf s.cfg b ≠ regionOf s.cfg a → peek t b = peek s b) ∧
      t.cpu = s.cpu ∧ t.cfg = s.cfg ∧ t.ppu = s.ppu ∧ t.trace = s.trace ∧
      t.bus = { s.bus with ram := t.bus.ram, scratch := t.bus.scratch, prgRam := t.bus.prgRam }

/-- The unbacked reads (R310, R312, R346) return a byte of OPEN_BUS and have no side effect, and the stub writes (R302, R312) are ignored. Which draw a read takes, and the count of draws, are the model's choice (log 2): the counter is its own field, and the byte is free. -/
def Obligations.OpenBusAndStubs : Prop :=
    (∀ (s : State) (a : Word),
      (0x4000 ≤ a.toNat ∧ a.toNat ≤ 0x4015) ∨ (0x4018 ≤ a.toNat ∧ a.toNat < 0x4020) ∨
        PpuRegisterAt 0 a ∨ PpuRegisterAt 3 a ∨ PpuRegisterAt 5 a ∨ PpuRegisterAt 6 a →
      memRead a s =
        .done (Config.openBus s.bus.openBusDraws) { s with bus := { s.bus with openBusDraws := s.bus.openBusDraws + 1 } }) ∧
    (∀ (s : State) (a : Word) (d : Byte),
      (0x4000 ≤ a.toNat ∧ a.toNat ≤ 0x4013) ∨ a.toNat = 0x4015 ∨ a.toNat = 0x4017 ∨ (0x4018 ≤ a.toNat ∧ a.toNat < 0x4020) →
      memWrite a d s = .done () s)

/-- Controller reads and the strobe write (R300, R301), and what they come to: after an odd and an even write, the reads return the buttons in bit order 0 to 7, and bit 7 from then on. -/
def Obligations.Controllers : Prop :=
    (∀ s : State,
      let moved := fun pad : Pad =>
        if s.bus.strobe = false ∧ pad.cursor.toNat < 7 then { pad with cursor := BitVec.ofNat 3 (pad.cursor.toNat + 1) } else pad
      let value := fun pad : Pad => BitVec.ofNat 8 (64 + (pad.buttons.getLsbD pad.cursor.toNat).toNat)
      memRead 0x4016 s = .done (value s.bus.pad0) { s with bus := { s.bus with pad0 := moved s.bus.pad0 } } ∧
      memRead 0x4017 s = .done (value s.bus.pad1) { s with bus := { s.bus with pad1 := moved s.bus.pad1 } }) ∧
    (∀ (s : State) (d : Byte),
      (d.toNat % 2 = 1 →
        memWrite 0x4016 d s =
          .done () { s with bus := { s.bus with strobe := true, pad0 := { s.bus.pad0 with cursor := 0 },
                                                pad1 := { s.bus.pad1 with cursor := 0 } } }) ∧
      (d.toNat % 2 = 0 → memWrite 0x4016 d s = .done () { s with bus := { s.bus with strobe := false } })) ∧
    (∀ (s : State) (one zero : Byte) (n : Nat), one.toNat % 2 = 1 → zero.toNat % 2 = 0 →
      let armed := afterWrite 0x4016 zero (afterWrite 0x4016 one s)
      (∃ t, memRead 0x4016 (afterReads 0x4016 n armed) =
        .done (BitVec.ofNat 8 (64 + (s.bus.pad0.buttons.getLsbD (min n 7)).toNat)) t) ∧
      (∃ t, memRead 0x4017 (afterReads 0x4017 n armed) =
        .done (BitVec.ofNat 8 (64 + (s.bus.pad1.buttons.getLsbD (min n 7)).toNat)) t))

/-- The write that starts OAM DMA (R305, R306). -/
def Obligations.DmaStart : Prop :=
  ∀ (s : State) (d : Byte),
    memWrite 0x4014 d s =
      .done ()
        { s with
          bus := { s.bus with dma := { active := true, page := d, count := 0, align := 1 + s.cpu.cycles % 2, phase := .read,
                                       latch := s.bus.dma.latch } }
          cpu := { s.cpu with idleCycles := s.cpu.idleCycles + (if s.cpu.cycles % 2 = 0 then 513 else 514) } }

/-- The idle sub-step (R131) and the three kinds of DMA cycle (R307), with the fault of a DMA read (R309, R418). -/
def Obligations.IdleSubStep : Prop :=
  ∀ s : State, s.cpu.runStatus = .running → 0 < s.cpu.idleCycles →
    let count := fun u : State =>
      { u with cpu := { u.cpu with idleCycles := u.cpu.idleCycles - 1, cycles := u.cpu.cycles + 1 } }
    let dma := s.bus.dma
    (dma.active = false → cpuStep s = .next (count s)) ∧
    (dma.active = true → 0 < dma.align →
      cpuStep s = .next (count { s with bus := { s.bus with dma := { dma with align := dma.align - 1 } } })) ∧
    (dma.active = true → dma.align = 0 → dma.phase = .read → dma.count < 256 →
      let source := BitVec.ofNat 16 (256 * dma.page.toNat + dma.count)
      (∀ v u, memRead source s = .done v u →
        cpuStep s = .next (count { u with bus := { u.bus with dma := { dma with latch := v, phase := .write } } })) ∧
      (∀ f u, memRead source s = .stopped f u → cpuStep s = .next (faultedWith f s))) ∧
    (dma.active = true → dma.align = 0 → dma.phase = .write →
      cpuStep s =
        .next (count
          { s with
            ppu := { s.ppu with oam := s.ppu.oam.write s.ppu.oamAddr.toNat dma.latch
                                oamAddr := BitVec.ofNat 8 (s.ppu.oamAddr.toNat + 1) }
            bus := { s.bus with dma := { dma with count := dma.count + 1, phase := .read,
                                                  active := decide (dma.count + 1 ≠ 256) } } }))

/-- R305 to R308 together, over all the sub-steps of a DMA: from the write to $4014 on, exactly 513 or 514 idle sub-steps copy the page into OAM from OAMADDR on, wrapping (D24). It is stated for a page of plain memory; R309 makes the reads of a register page ordinary reads, which IdleSubStep states. -/
def Obligations.DmaCopiesThePage : Prop :=
  ∀ (s s0 : State) (page : Byte), s.cpu.runStatus = .running →
    memWrite 0x4014 page s = .done () s0 →
    (∀ n, n < 256 → (peek s (BitVec.ofNat 16 (256 * page.toNat + n))).isSome) →
    ∃ t, cpuSteps (513 + s.cpu.cycles % 2) s0 = .next t ∧
      (∀ n, n < 256 →
        peek s (BitVec.ofNat 16 (256 * page.toNat + n)) = some (t.ppu.oam.read ((s.ppu.oamAddr.toNat + n) % 256))) ∧
      t.ppu.oamAddr = s.ppu.oamAddr ∧ t.bus.dma.active = false ∧ t.bus.dma.count = 256 ∧
      t.cpu = { s.cpu with cycles := s.cpu.cycles + (513 + s.cpu.cycles % 2) } ∧
      t.ppu = { s.ppu with oam := t.ppu.oam } ∧ t.bus = { s.bus with dma := t.bus.dma } ∧ t.cfg = s.cfg ∧ t.trace = s.trace

/-- The read of `$2002` and its mirrors (R333). Which OPEN_BUS draw gives the low bits, and the count of draws, are the model's choice (log 2): the counter is its own field, and the byte is free. -/
def Obligations.StatusRead : Prop :=
  ∀ (s : State) (a : Word), PpuRegisterAt 2 a →
    ∃ v, memRead a s =
        .done v
          { s with
            ppu := { s.ppu with status := { s.ppu.status with vblank := false }, w := false }
            bus := { s.bus with openBusDraws := s.bus.openBusDraws + 1 } } ∧
      v.getLsbD 7 = s.ppu.status.vblank ∧ v.getLsbD 6 = s.ppu.status.sprite0Hit ∧
      v.getLsbD 5 = s.ppu.status.spriteOverflow ∧
      ∀ k, k < 5 → v.getLsbD k = (Config.openBus s.bus.openBusDraws).getLsbD k

/-- `$2000` to `$2004` but for the `$2002` read (R331, R332, R334 to R337, R345, R347). -/
def Obligations.ControlAndOamRegisters : Prop :=
    (∀ (s : State) (a : Word) (d : Byte), PpuRegisterAt 0 a →
      ∃ u, memWrite a d s = .done () { s with ppu := { s.ppu with ctrl := d, t := u } } ∧
        u.toNat = s.ppu.t.toNat / 4096 * 4096 + d.toNat % 4 * 1024 + s.ppu.t.toNat % 1024) ∧
    (∀ (s : State) (a : Word) (d : Byte), PpuRegisterAt 1 a →
      memWrite a d s = .done () { s with ppu := { s.ppu with mask := d } } ∧ memRead a s = .done s.ppu.mask s) ∧
    (∀ (s : State) (a : Word) (d : Byte), PpuRegisterAt 2 a → memWrite a d s = .done () s) ∧
    (∀ (s : State) (a : Word) (d : Byte), PpuRegisterAt 3 a →
      memWrite a d s = .done () { s with ppu := { s.ppu with oamAddr := d } }) ∧
    (∀ (s : State) (a : Word) (d : Byte), PpuRegisterAt 4 a →
      memWrite a d s =
        .done () { s with ppu := { s.ppu with oam := s.ppu.oam.write s.ppu.oamAddr.toNat d
                                              oamAddr := BitVec.ofNat 8 (s.ppu.oamAddr.toNat + 1) } } ∧
      memRead a s = .done (s.ppu.oam.read s.ppu.oamAddr.toNat) s)

/-- `$2005` and `$2006` (R338 to R341), in the fields of t (R44, R45), and the quoted consequence. -/
def Obligations.ScrollAndAddressWrites : Prop :=
    (∀ (s : State) (a : Word) (d : Byte), PpuRegisterAt 5 a →
      (s.ppu.w = false →
        ∃ u, memWrite a d s = .done () { s with ppu := { s.ppu with t := u, fineX := BitVec.ofNat 3 (d.toNat % 8), w := true } } ∧
          u.toNat = s.ppu.t.toNat / 32 * 32 + d.toNat / 8) ∧
      (s.ppu.w = true →
        ∃ u, memWrite a d s = .done () { s with ppu := { s.ppu with t := u, w := false } } ∧
          u.toNat = d.toNat % 8 * 4096 + s.ppu.t.toNat / 1024 % 4 * 1024 + d.toNat / 8 * 32 + s.ppu.t.toNat % 32)) ∧
    (∀ (s : State) (a : Word) (d : Byte), PpuRegisterAt 6 a →
      (s.ppu.w = false →
        ∃ u, memWrite a d s = .done () { s with ppu := { s.ppu with t := u, w := true } } ∧
          u.toNat = d.toNat % 64 * 256 + s.ppu.t.toNat % 256) ∧
      (s.ppu.w = true →
        ∃ u, memWrite a d s = .done () { s with ppu := { s.ppu with t := u, v := u, w := false } } ∧
          u.toNat = s.ppu.t.toNat / 256 * 256 + d.toNat)) ∧
    (∀ (s : State) (d1 d2 d3 d4 : Byte), s.ppu.w = false →
      let t := afterWrite 0x2006 d4 (afterWrite 0x2006 d3 (afterWrite 0x2005 d2 (afterWrite 0x2005 d1 s)))
      t.ppu.v = t.ppu.t ∧ t.ppu.w = false ∧ t.ppu.v.toNat = d3.toNat % 64 * 256 + d4.toNat)

/-- `$2007` (R342 to R344, with the faults of R87 to R89): the buffered and the palette read, the write, the increment, and the faults, which leave everything as it was. -/
def Obligations.DataPort : Prop :=
  ∀ (s : State) (a : Word) (d : Byte), PpuRegisterAt 7 a →
    let next := BitVec.ofNat 15 (s.ppu.v.toNat + (if s.ppu.ctrl.getLsbD 2 then 32 else 1))
    let here := BitVec.ofNat 14 s.ppu.v.toNat
    (s.ppu.v.toNat < 0x3F00 →
      memRead a s =
        .done s.ppu.readBuffer { s with ppu := { s.ppu with readBuffer := ppuFetch s.cfg s.ppu here, v := next } }) ∧
    (0x3F00 ≤ s.ppu.v.toNat → s.ppu.v.toNat < 0x4000 →
      memRead a s =
        .done (ppuFetch s.cfg s.ppu here)
          { s with ppu := { s.ppu with readBuffer := ppuFetch s.cfg s.ppu (BitVec.ofNat 14 (s.ppu.v.toNat - 0x1000)), v := next } }) ∧
    (0x4000 ≤ s.ppu.v.toNat → memRead a s = .stopped (.ppuAddressOutOfRange s.ppu.v) s) ∧
    (s.ppu.v.toNat < 0x2000 → memWrite a d s = .stopped (.chrRomWrite s.ppu.v) s) ∧
    (0x2000 ≤ s.ppu.v.toNat → s.ppu.v.toNat < 0x4000 →
      ∃ p, p = ppuStore s.cfg here d s.ppu ∧ memWrite a d s = .done () { s with ppu := { p with v := next } }) ∧
    (0x4000 ≤ s.ppu.v.toNat → memWrite a d s = .stopped (.ppuAddressOutOfRange s.ppu.v) s)

/-- The PPU address space (R90 to R92, with the map of R86 and R87): which cell an address is, that a store reads back there, and the palette shadow. -/
def Obligations.PpuAddressSpace : Prop :=
    (∀ (cfg : Config) (p : Ppu) (a : BitVec 14),
      let n := a.toNat
      let cell := match cfg.mirroring with
        | .horizontal => n % 4096 / 2048 * 1024 + n % 1024
        | .vertical => n % 2048
        | .fourScreen => n % 4096
      let entry := if n % 32 ∈ [0x10, 0x14, 0x18, 0x1C] then n % 32 - 16 else n % 32
      (n < 0x2000 → ppuFetch cfg p a = cfg.chrRom.read n) ∧
      (0x2000 ≤ n → n < 0x3F00 → ppuFetch cfg p a = p.vram.read cell ∧ cell < vramSize cfg.mirroring ∧
        ∀ d, ppuStore cfg a d p = { p with vram := p.vram.write cell d }) ∧
      (0x3F00 ≤ n → ppuFetch cfg p a = p.palette.read entry ∧ entry < 32 ∧
        ∀ d, ppuStore cfg a d p = { p with palette := p.palette.write entry d })) ∧
    (∀ (cfg : Config) (p : Ppu) (a : BitVec 14) (d : Byte), 0x2000 ≤ a.toNat → ppuFetch cfg (ppuStore cfg a d p) a = d) ∧
    (∀ (cfg : Config) (p : Ppu) (a : BitVec 14), 0x3000 ≤ a.toNat → a.toNat < 0x3F00 →
      ppuFetch cfg p a = ppuFetch cfg p (a - 0x1000)) ∧
    (∀ (cfg : Config) (p : Ppu) (d : Byte), ppuFetch cfg (ppuStore cfg 0x3F10 d p) 0x3F00 = d)

/-- The four changes of v by rendering (R369 to R372), in the fields of v and t (R44). -/
def Obligations.ScrollIncrements : Prop :=
  ∀ (t v : Loopy),
    (coarseXIncrement v).toNat =
      (if v.toNat % 32 = 31 then
        (if v.toNat / 1024 % 2 = 0 then v.toNat - 31 + 1024 else v.toNat - 31 - 1024) else v.toNat + 1) ∧
    (yIncrement v).toNat =
      (let rest := v.toNat % 4096
       if v.toNat / 4096 < 7 then v.toNat + 4096
       else if rest / 32 % 32 = 29 then (if rest / 2048 = 0 then rest - 29 * 32 + 2048 else rest - 29 * 32 - 2048)
       else if rest / 32 % 32 = 31 then rest - 31 * 32
       else rest + 32) ∧
    (copyHorizontal t v).toNat =
      v.toNat / 2048 * 2048 + t.toNat / 1024 % 2 * 1024 + v.toNat / 32 % 32 * 32 + t.toNat % 32 ∧
    (copyVertical t v).toNat =
      t.toNat / 2048 * 2048 + v.toNat / 1024 % 2 * 1024 + t.toNat / 32 % 32 * 32 + v.toNat % 32

/-- The status events (R364, R365) in the PPU's part of a tick, and that no other dot raises an NMI, sets VBlank or clears a flag (R311, R388). -/
def Obligations.VBlankAndNmi : Prop :=
  ∀ s : State,
    let t := ppuTick s
    (s.ppu.scanline.val = 241 → s.ppu.dot.val = 1 →
      t.ppu.status = { s.ppu.status with vblank := true } ∧
      t.bus.nmiGenerated = (s.bus.nmiGenerated || s.ppu.ctrl.getLsbD 7)) ∧
    (s.ppu.scanline.val = 261 → s.ppu.dot.val = 1 →
      t.ppu.status = ⟨false, false, false⟩ ∧ t.bus.nmiGenerated = s.bus.nmiGenerated) ∧
    (¬(s.ppu.scanline.val = 241 ∧ s.ppu.dot.val = 1) → t.bus.nmiGenerated = s.bus.nmiGenerated) ∧
    (¬(s.ppu.scanline.val = 241 ∧ s.ppu.dot.val = 1) → ¬(s.ppu.scanline.val = 261 ∧ s.ppu.dot.val = 1) →
      t.ppu.status.vblank = s.ppu.status.vblank ∧
      (s.ppu.status.sprite0Hit = true → t.ppu.status.sprite0Hit = true) ∧
      (s.ppu.status.spriteOverflow = true → t.ppu.status.spriteOverflow = true))

/-- R360 and R387: the raster advances by one dot each PPU step and a frame is 89342 dots, with rendering on or off. -/
def Obligations.FrameTiming : Prop :=
    (∀ (cfg : Config) (p : Ppu),
      rasterIndex (ppuStep cfg p) = (rasterIndex p + 1) % 89342 ∧
      (ppuStep cfg p).frameCount = p.frameCount + (if rasterIndex p = 89341 then 1 else 0)) ∧
    (∀ (cfg : Config) (p : Ppu),
      let q := Nat.iterate (ppuStep cfg) 89342 p
      q.scanline = p.scanline ∧ q.dot = p.dot ∧ q.frameCount = p.frameCount + 1)

/-- What the work of a dot does, step by step (R361), and that it does nothing else (R388): the pixel (step 1), the status events (steps 2 and 3), and with rendering enabled (R363) on a rendering line the tile fetches (R366, R367), the changes of v (R369 to R372), the clear of secondary OAM (R375), the evaluation (R376) and the slot load (R379, R380). -/
def Obligations.RenderingFrame : Prop :=
  ∀ (cfg : Config) (p : Ppu) (s d : Nat),
    let q := dotWork cfg p s d
    let works := (s ≤ 239 ∨ s = 261) ∧ RenderingOn cfg p
    let pixel := outputPixel cfg p s (d - 1)
    let fetched := fetchTile cfg p
    let evaluated := evaluateSprites p s
    let loaded := loadSpriteSlots cfg p s
    (renderEnabled cfg p = true ↔ RenderingOn cfg p) ∧
    (q.ctrl = p.ctrl ∧ q.mask = p.mask ∧ q.oamAddr = p.oamAddr ∧ q.readBuffer = p.readBuffer ∧ q.t = p.t ∧
      q.fineX = p.fineX ∧ q.w = p.w ∧ q.vram = p.vram ∧ q.palette = p.palette ∧ q.oam = p.oam ∧
      q.scanline = p.scanline ∧ q.dot = p.dot ∧ q.frameCount = p.frameCount) ∧
    (if s ≤ 239 ∧ 1 ≤ d ∧ d ≤ 256 then
        q.frameBuffer = pixel.frameBuffer ∧ q.status.sprite0Hit = pixel.status.sprite0Hit
      else q.frameBuffer = p.frameBuffer ∧
        q.status.sprite0Hit = (if s = 261 ∧ d = 1 then false else p.status.sprite0Hit)) ∧
    q.status.vblank = (if s = 241 ∧ d = 1 then true else if s = 261 ∧ d = 1 then false else p.status.vblank) ∧
    q.status.spriteOverflow =
      (if s = 261 ∧ d = 1 then false
        else if works ∧ s ≤ 239 ∧ d = 256 then evaluated.status.spriteOverflow else p.status.spriteOverflow) ∧
    (works → q.v =
      (let v1 := if FetchesAt d then coarseXIncrement p.v else p.v
       let v2 := if d = 256 then yIncrement v1 else v1
       let v3 := if d = 257 then copyHorizontal p.t v2 else v2
       if s = 261 ∧ 280 ≤ d ∧ d ≤ 304 then copyVertical p.t v3 else v3)) ∧
    (¬works → q.v = p.v) ∧
    (if works ∧ FetchesAt d then q.bgA = fetched.bgA ∧ q.bgB = fetched.bgB else q.bgA = p.bgA ∧ q.bgB = p.bgB) ∧
    (if works ∧ s ≤ 239 ∧ d = 64 then
        (∀ n, n < 32 → q.secOam.read n = 0xFF) ∧ q.secCount = 0 ∧ q.secIndex = p.secIndex
      else if works ∧ s ≤ 239 ∧ d = 256 then
        q.secOam = evaluated.secOam ∧ q.secCount = evaluated.secCount ∧ q.secIndex = evaluated.secIndex
      else q.secOam = p.secOam ∧ q.secCount = p.secCount ∧ q.secIndex = p.secIndex) ∧
    (if works ∧ d = 320 then
        (s ≤ 239 → q.slots = loaded.slots ∧ q.slotCount = loaded.slotCount) ∧
        (s = 261 → q.slots = p.slots ∧ q.slotCount = 0)
      else q.slots = p.slots ∧ q.slotCount = p.slotCount)

/-- The background: the tile fetch with its attribute selection (R367, R368), the background pixel (R373) and the layer enables (R374), in the fields of v (R44). -/
def Obligations.Background : Prop :=
    (∀ (cfg : Config) (p : Ppu),
      let cx := p.v.toNat % 32
      let cy := p.v.toNat / 32 % 32
      let tile := ppuFetch cfg p (BitVec.ofNat 14 (0x2000 + p.v.toNat % 4096))
      let attr := ppuFetch cfg p (BitVec.ofNat 14 (0x23C0 + p.v.toNat / 1024 % 4 * 1024 + cy / 4 * 8 + cx / 4))
      let row := (if p.ctrl.getLsbD 4 then 4096 else 0) + 16 * tile.toNat + p.v.toNat / 4096
      row + 8 < 0x2000 ∧
        fetchTile cfg p =
          { p with bgA := p.bgB
                   bgB := { patLo := cfg.chrRom.read row, patHi := cfg.chrRom.read (row + 8)
                            pal := BitVec.ofNat 2 (attr.toNat / 2 ^ (4 * (cy / 2 % 2) + 2 * (cx / 2 % 2))) } }) ∧
    (∀ (cfg : Config) (p : Ppu) (x : Nat),
      let place := x % 8 + p.fineX.toNat
      let tl := if place < 8 then p.bgA else p.bgB
      backgroundTile p x = tl ∧
        (showBackground cfg p x = true →
          (backgroundPixel cfg p x).toNat =
            2 * (tl.patHi.getLsbD (7 - place % 8)).toNat + (tl.patLo.getLsbD (7 - place % 8)).toNat) ∧
        (showBackground cfg p x = false → backgroundPixel cfg p x = 0)) ∧
    (∀ (cfg : Config) (p : Ppu) (x : Nat),
      (cfg.maskGating = .hardware →
        (showBackground cfg p x = true ↔ p.mask.getLsbD 3 = true ∧ (8 ≤ x ∨ p.mask.getLsbD 1 = true)) ∧
        (showSprites cfg p x = true ↔ p.mask.getLsbD 4 = true ∧ (8 ≤ x ∨ p.mask.getLsbD 2 = true))) ∧
      (cfg.maskGating = .ignored → showBackground cfg p x = true ∧ showSprites cfg p x = true))

/-- Sprite evaluation and overflow (R376, R377): the sprites in range in OAM order, the first eight copied and remembered. -/
def Obligations.SpriteEvaluation : Prop :=
  ∀ (p : Ppu) (line : Nat) (found : List Nat),
    found.Pairwise (· < ·) → (∀ i, i ∈ found ↔ i < 64 ∧ OnLine p line i) →
    let q := evaluateSprites p line
    q.secCount = min 8 found.length ∧
    (∀ n, n < q.secCount →
      (∀ k, k < 4 → q.secOam.read (4 * n + k) = p.oam.read (4 * found.getD n 0 + k)) ∧
      q.secIndex.toList.getD n 0 = BitVec.ofNat 6 (found.getD n 0)) ∧
    (∀ n, 4 * q.secCount ≤ n → q.secOam.read n = p.secOam.read n) ∧
    (∀ n, q.secCount ≤ n → q.secIndex.toList.getD n 0 = p.secIndex.toList.getD n 0) ∧
    q.status.spriteOverflow = (p.status.spriteOverflow || decide (8 < found.length)) ∧
    q = { p with secOam := q.secOam, secCount := q.secCount, secIndex := q.secIndex,
                 status := { p.status with spriteOverflow := q.status.spriteOverflow } }

/-- The sprite slot load (R378, R379) for sprites that are in range on the line, as evaluation on that line leaves them. (Off that range the row is negative or too large and R379 states no value: log 3.) -/
def Obligations.SpriteSlots : Prop :=
  ∀ (cfg : Config) (p : Ppu) (line : Nat), p.secCount ≤ 8 →
    (∀ k, k < p.secCount → (p.secOam.read (4 * k)).toNat ≤ line ∧
      line < (p.secOam.read (4 * k)).toNat + (if p.ctrl.getLsbD 5 then 16 else 8)) →
    let q := loadSpriteSlots cfg p line
    q = { p with slots := q.slots, slotCount := p.secCount } ∧
    (∀ k, p.secCount ≤ k →
      q.slots.toList.getD k ⟨0, 0, 0, 0, false⟩ = p.slots.toList.getD k ⟨0, 0, 0, 0, false⟩) ∧
    ∀ k, k < p.secCount →
      let attr := p.secOam.read (4 * k + 2)
      let at0 := spriteRow p line (p.secOam.read (4 * k)) (p.secOam.read (4 * k + 1)) attr
      let slot := q.slots.toList.getD k ⟨0, 0, 0, 0, false⟩
      slot.x = p.secOam.read (4 * k + 3) ∧ slot.attr = attr ∧
      slot.isSprite0 = decide (p.secIndex.toList.getD k 0 = 0) ∧
      Flipped (attr.getLsbD 6) (cfg.chrRom.read at0) slot.patLo ∧
      Flipped (attr.getLsbD 6) (cfg.chrRom.read (at0 + 8)) slot.patHi

/-- Sprite pixels, composition, output color and sprite-0 hit (R381 to R385), over the background pixel of R373 and the enables of R363 and R374. -/
def Obligations.PixelOutput : Prop :=
  ∀ (cfg : Config) (p : Ppu) (line x : Nat),
    let q := outputPixel cfg p line x
    let bg := backgroundPixel cfg p x
    let bgp := (backgroundTile p x).pal.toNat
    let seen := if showSprites cfg p x then (p.slots.toList.take p.slotCount).filter (fun slot => slotValue x slot ≠ 0) else []
    let address := match seen with
      | [] => if bg ≠ 0 then 0x3F00 + 4 * bgp + bg.toNat else 0x3F00
      | slot :: _ =>
        if bg = 0 ∨ slot.attr.getLsbD 5 = false then 0x3F10 + 4 * (slot.attr.toNat % 4) + slotValue x slot
        else 0x3F00 + 4 * bgp + bg.toNat
    let shown := if RenderingOn cfg p then address else 0x3F00
    let color := (ppuFetch cfg p (BitVec.ofNat 14 shown)).toNat % 64
    (∀ slot, (slotPixel x slot).toNat = slotValue x slot) ∧
    (q.frameBuffer.read (256 * line + x)).toNat =
      (if cfg.maskGating = .hardware ∧ p.mask.getLsbD 0 = true then color / 16 * 16 else color) ∧
    (∀ n, n ≠ 256 * line + x → q.frameBuffer.read n = p.frameBuffer.read n) ∧
    (q.status.sprite0Hit = true ↔
      p.status.sprite0Hit = true ∨
        (RenderingOn cfg p ∧ bg ≠ 0 ∧ ∃ slot ∈ seen, slot.isSprite0 = true)) ∧
    q = { p with frameBuffer := q.frameBuffer, status := { p.status with sprite0Hit := q.status.sprite0Hit } }
end

