-- ==== Sys2Proof/Laws/Memory.lean ====
section
/-!
SUPPORT. The laws of `Memory`: read after write, what a write leaves alone, and that every operation keeps the canonical form
and the size.
-/

namespace Sys2Proof

variable {w : Nat}

@[simp] theorem Memory.read_nil (i : Nat) : Memory.read ([] : Memory w) i = 0 := rfl

theorem Memory.read_erase_self (m : Memory w) (i : Nat) : (m.erase i).read i = 0 := by
  induction m with
  | nil => rfl
  | cons cell rest ih =>
    obtain ⟨k, v⟩ := cell
    by_cases h : k = i <;> simp [Memory.erase, Memory.read, h, ih]

theorem Memory.read_erase_ne (m : Memory w) {i j : Nat} (h : j ≠ i) : (m.erase i).read j = m.read j := by
  induction m with
  | nil => rfl
  | cons cell rest ih =>
    obtain ⟨k, v⟩ := cell
    by_cases hk : k = i
    · simp [Memory.erase, Memory.read, hk, ih, Ne.symm h]
    · simp [Memory.erase, Memory.read, hk, ih]

theorem Memory.read_insert_self (m : Memory w) (i : Nat) (u : BitVec w) : (m.insert i u).read i = u := by
  induction m with
  | nil => simp [Memory.insert, Memory.read]
  | cons cell rest ih =>
    obtain ⟨k, v⟩ := cell
    rw [Memory.insert]
    split
    · simp [Memory.read]
    · split <;> simp_all [Memory.read]

theorem Memory.read_insert_ne (m : Memory w) {i j : Nat} (u : BitVec w) (h : j ≠ i) : (m.insert i u).read j = m.read j := by
  induction m with
  | nil => simp [Memory.insert, Memory.read, Ne.symm h]
  | cons cell rest ih =>
    obtain ⟨k, v⟩ := cell
    rw [Memory.insert]
    split
    · simp [Memory.read, Ne.symm h]
    · split
      · next hk => simp [Memory.read, hk, Ne.symm h]
      · simp [Memory.read, ih]

@[simp] theorem Memory.read_write_self (m : Memory w) (i : Nat) (u : BitVec w) : (m.write i u).read i = u := by
  rw [Memory.write]
  split
  · next h => rw [h, Memory.read_erase_self]
  · exact Memory.read_insert_self m i u

theorem Memory.read_write_ne (m : Memory w) {i j : Nat} (u : BitVec w) (h : j ≠ i) : (m.write i u).read j = m.read j := by
  rw [Memory.write]
  split
  · exact Memory.read_erase_ne m h
  · exact Memory.read_insert_ne m u h

theorem Memory.read_write (m : Memory w) (i j : Nat) (u : BitVec w) :
    (m.write i u).read j = if j = i then u else m.read j := by
  split
  · next h => rw [h, Memory.read_write_self]
  · next h => exact Memory.read_write_ne m u h

/-! ### The canonical form -/

theorem Memory.wf_cons (k : Nat) (v : BitVec w) (rest : Memory w) :
    Memory.wf ((k, v) :: rest) = true ↔ v ≠ 0 ∧ (∀ cell ∈ rest, k < cell.1) ∧ rest.wf = true := by
  simp [Memory.wf, and_assoc]

theorem Memory.fits_iff (m : Memory w) (size : Nat) : m.fits size = true ↔ ∀ cell ∈ m, cell.1 < size := by
  simp [Memory.fits]

theorem Memory.mem_erase (m : Memory w) (i : Nat) (cell : Nat × BitVec w) (h : cell ∈ m.erase i) : cell ∈ m := by
  induction m with
  | nil => exact h
  | cons head rest ih =>
    obtain ⟨k, v⟩ := head
    rw [Memory.erase] at h
    split at h
    · exact List.mem_cons_of_mem _ (ih h)
    · rcases List.mem_cons.1 h with h | h
      · exact h ▸ List.mem_cons_self
      · exact List.mem_cons_of_mem _ (ih h)

theorem Memory.mem_insert (m : Memory w) (i : Nat) (u : BitVec w) (cell : Nat × BitVec w) (h : cell ∈ m.insert i u) :
    cell = (i, u) ∨ cell ∈ m := by
  induction m with
  | nil => exact Or.inl (by simpa [Memory.insert] using h)
  | cons head rest ih =>
    obtain ⟨k, v⟩ := head
    rw [Memory.insert] at h
    split at h
    · exact List.mem_cons.1 h
    · split at h
      · exact (List.mem_cons.1 h).imp id (List.mem_cons_of_mem _)
      · rcases List.mem_cons.1 h with h | h
        · exact Or.inr (h ▸ List.mem_cons_self)
        · exact (ih h).imp id (List.mem_cons_of_mem _)

theorem Memory.wf_erase (m : Memory w) (i : Nat) (h : m.wf = true) : (m.erase i).wf = true := by
  induction m with
  | nil => rfl
  | cons head rest ih =>
    obtain ⟨k, v⟩ := head
    obtain ⟨hv, hk, hr⟩ := (Memory.wf_cons k v rest).1 h
    rw [Memory.erase]
    split
    · exact ih hr
    · exact (Memory.wf_cons _ _ _).2 ⟨hv, fun cell hc => hk cell (Memory.mem_erase rest i cell hc), ih hr⟩

theorem Memory.wf_insert (m : Memory w) (i : Nat) (u : BitVec w) (hu : u ≠ 0) (h : m.wf = true) :
    (m.insert i u).wf = true := by
  induction m with
  | nil => exact (Memory.wf_cons _ _ _).2 ⟨hu, by simp, rfl⟩
  | cons head rest ih =>
    obtain ⟨k, v⟩ := head
    obtain ⟨hv, hk, hr⟩ := (Memory.wf_cons k v rest).1 h
    rw [Memory.insert]
    split
    · next hik =>
      refine (Memory.wf_cons _ _ _).2 ⟨hu, fun cell hc => ?_, h⟩
      rcases List.mem_cons.1 hc with hc | hc
      · exact hc ▸ hik
      · exact Nat.lt_trans hik (hk cell hc)
    · split
      · next he => exact (Memory.wf_cons _ _ _).2 ⟨hu, he ▸ hk, hr⟩
      · refine (Memory.wf_cons _ _ _).2 ⟨hv, fun cell hc => ?_, ih hr⟩
        rcases Memory.mem_insert rest i u cell hc with hc | hc
        · subst hc; show k < i; omega
        · exact hk cell hc

/-- A write keeps the canonical form. -/
theorem Memory.wf_write (m : Memory w) (i : Nat) (u : BitVec w) (h : m.wf = true) : (m.write i u).wf = true := by
  rw [Memory.write]
  split
  · exact Memory.wf_erase m i h
  · next hu => exact Memory.wf_insert m i u hu h

/-- A write inside the size keeps the size. -/
theorem Memory.fits_write (m : Memory w) (i size : Nat) (u : BitVec w) (hi : i < size) (h : m.fits size = true) :
    (m.write i u).fits size = true := by
  rw [Memory.fits_iff] at *
  intro cell hc
  rw [Memory.write] at hc
  split at hc
  · exact h cell (Memory.mem_erase m i cell hc)
  · rcases Memory.mem_insert m i u cell hc with hc | hc
    · subst hc; exact hi
    · exact h cell hc

theorem Memory.read_of_lt (m : Memory w) (i : Nat) (h : ∀ cell ∈ m, i < cell.1) : m.read i = 0 := by
  induction m with
  | nil => rfl
  | cons head rest ih =>
    obtain ⟨k, v⟩ := head
    have hk : i < k := h (k, v) List.mem_cons_self
    simp [Memory.read, show k ≠ i by omega, ih fun cell hc => h cell (List.mem_cons_of_mem _ hc)]

/-- Two memories in canonical form that read alike are equal data. -/
theorem Memory.eq_of_read_eq (m n : Memory w) (hm : m.wf = true) (hn : n.wf = true) (h : ∀ i, m.read i = n.read i) :
    m = n := by
  induction m generalizing n with
  | nil =>
    cases n with
    | nil => rfl
    | cons head rest =>
      obtain ⟨k, v⟩ := head
      obtain ⟨hv, -, -⟩ := (Memory.wf_cons k v rest).1 hn
      exact absurd (by simpa [Memory.read] using (h k).symm) hv
  | cons head rest ih =>
    obtain ⟨k, v⟩ := head
    obtain ⟨hv, hk, hr⟩ := (Memory.wf_cons k v rest).1 hm
    cases n with
    | nil => exact absurd (by simpa [Memory.read] using h k) hv
    | cons head' rest' =>
      obtain ⟨k', v'⟩ := head'
      obtain ⟨hv', hk', hr'⟩ := (Memory.wf_cons k' v' rest').1 hn
      have key : k = k' := by
        rcases Nat.lt_trichotomy k k' with hlt | heq | hgt
        · have h1 := h k
          simp only [Memory.read, if_pos, if_neg (show k' ≠ k by omega)] at h1
          rw [Memory.read_of_lt rest' k fun cell hc => Nat.lt_trans hlt (hk' cell hc)] at h1
          exact absurd h1 hv
        · exact heq
        · have h1 := h k'
          simp only [Memory.read, if_pos, if_neg (show k ≠ k' by omega)] at h1
          rw [Memory.read_of_lt rest k' fun cell hc => Nat.lt_trans hgt (hk cell hc)] at h1
          exact absurd h1.symm hv'
      subst key
      have hvv : v = v' := by simpa [Memory.read] using h k
      subst hvv
      have : rest = rest' := by
        refine ih rest' hr hr' fun i => ?_
        by_cases hi : k = i
        · subst hi
          rw [Memory.read_of_lt rest k hk, Memory.read_of_lt rest' k hk']
        · simpa [Memory.read, hi] using h i
      rw [this]

/-! ### The memory of a list of bytes -/

theorem Memory.mem_ofBytesFrom (i : Nat) (bytes : List Byte) (cell : Nat × Byte) (h : cell ∈ Memory.ofBytesFrom i bytes) :
    i ≤ cell.1 ∧ cell.1 < i + bytes.length := by
  induction bytes generalizing i with
  | nil => simp [Memory.ofBytesFrom] at h
  | cons b rest ih =>
    rw [Memory.ofBytesFrom] at h
    simp only [List.length_cons]
    split at h
    · have := ih (i + 1) h; omega
    · rcases List.mem_cons.1 h with h | h
      · subst h; show i ≤ i ∧ i < _; omega
      · have := ih (i + 1) h; omega

theorem Memory.wf_ofBytesFrom (i : Nat) (bytes : List Byte) : (Memory.ofBytesFrom i bytes).wf = true := by
  induction bytes generalizing i with
  | nil => rfl
  | cons b rest ih =>
    rw [Memory.ofBytesFrom]
    split
    · exact ih (i + 1)
    · next hb =>
      refine (Memory.wf_cons _ _ _).2 ⟨hb, fun cell hc => ?_, ih (i + 1)⟩
      have := Memory.mem_ofBytesFrom (i + 1) rest cell hc
      omega

theorem Memory.read_ofBytesFrom (i n : Nat) (bytes : List Byte) :
    (Memory.ofBytesFrom i bytes).read (i + n) = bytes.getD n 0 := by
  induction bytes generalizing i n with
  | nil => simp [Memory.ofBytesFrom]
  | cons b rest ih =>
    rw [Memory.ofBytesFrom]
    cases n with
    | zero =>
      split
      · next hb =>
        rw [Memory.read_of_lt _ _ fun cell hc => ?_]
        · simp [hb]
        · have := Memory.mem_ofBytesFrom (i + 1) rest cell hc; omega
      · simp [Memory.read]
    | succ n =>
      have h := ih (i + 1) n
      rw [show i + 1 + n = i + (n + 1) by omega] at h
      split
      · simpa using h
      · simpa [Memory.read] using h

theorem Memory.wf_ofBytes (bytes : List Byte) : (Memory.ofBytes bytes).wf = true := Memory.wf_ofBytesFrom 0 bytes

theorem Memory.fits_ofBytes (bytes : List Byte) (size : Nat) (h : bytes.length ≤ size) :
    (Memory.ofBytes bytes).fits size = true := by
  rw [Memory.fits_iff]
  intro cell hc
  have := Memory.mem_ofBytesFrom 0 bytes cell hc
  omega

theorem Memory.read_ofBytes (bytes : List Byte) (n : Nat) : (Memory.ofBytes bytes).read n = bytes.getD n 0 := by
  have h := Memory.read_ofBytesFrom 0 n bytes
  rwa [Nat.zero_add] at h

end Sys2Proof
end

