-- ==== Sys2Proof/Laws/State.lean ====
section
/-!
SUPPORT. One lemma per part of the state per named update, each true by rfl, so that no proof unfolds a record update.
-/

namespace Sys2Proof.Machine

/-! ### `State.mapCpu` -/

@[simp] theorem State.mapCpu_cfg (s : State) (f : Cpu → Cpu) : (s.mapCpu f).cfg = s.cfg := rfl
@[simp] theorem State.mapCpu_cpu (s : State) (f : Cpu → Cpu) : (s.mapCpu f).cpu = f s.cpu := rfl
@[simp] theorem State.mapCpu_bus (s : State) (f : Cpu → Cpu) : (s.mapCpu f).bus = s.bus := rfl
@[simp] theorem State.mapCpu_ppu (s : State) (f : Cpu → Cpu) : (s.mapCpu f).ppu = s.ppu := rfl
@[simp] theorem State.mapCpu_trace (s : State) (f : Cpu → Cpu) : (s.mapCpu f).trace = s.trace := rfl

/-! ### `State.mapBus` -/

@[simp] theorem State.mapBus_cfg (s : State) (f : Bus → Bus) : (s.mapBus f).cfg = s.cfg := rfl
@[simp] theorem State.mapBus_cpu (s : State) (f : Bus → Bus) : (s.mapBus f).cpu = s.cpu := rfl
@[simp] theorem State.mapBus_bus (s : State) (f : Bus → Bus) : (s.mapBus f).bus = f s.bus := rfl
@[simp] theorem State.mapBus_ppu (s : State) (f : Bus → Bus) : (s.mapBus f).ppu = s.ppu := rfl
@[simp] theorem State.mapBus_trace (s : State) (f : Bus → Bus) : (s.mapBus f).trace = s.trace := rfl

/-! ### `State.mapPpu` -/

@[simp] theorem State.mapPpu_cfg (s : State) (f : Ppu → Ppu) : (s.mapPpu f).cfg = s.cfg := rfl
@[simp] theorem State.mapPpu_cpu (s : State) (f : Ppu → Ppu) : (s.mapPpu f).cpu = s.cpu := rfl
@[simp] theorem State.mapPpu_bus (s : State) (f : Ppu → Ppu) : (s.mapPpu f).bus = s.bus := rfl
@[simp] theorem State.mapPpu_ppu (s : State) (f : Ppu → Ppu) : (s.mapPpu f).ppu = f s.ppu := rfl
@[simp] theorem State.mapPpu_trace (s : State) (f : Ppu → Ppu) : (s.mapPpu f).trace = s.trace := rfl

/-! ### `State.stopWith` -/

@[simp] theorem State.stopWith_cfg (s : State) (f : Fault) : (s.stopWith f).cfg = s.cfg := rfl
@[simp] theorem State.stopWith_a (s : State) (f : Fault) : (s.stopWith f).cpu.a = s.cpu.a := rfl
@[simp] theorem State.stopWith_x (s : State) (f : Fault) : (s.stopWith f).cpu.x = s.cpu.x := rfl
@[simp] theorem State.stopWith_y (s : State) (f : Fault) : (s.stopWith f).cpu.y = s.cpu.y := rfl
@[simp] theorem State.stopWith_sp (s : State) (f : Fault) : (s.stopWith f).cpu.sp = s.cpu.sp := rfl
@[simp] theorem State.stopWith_pc (s : State) (f : Fault) : (s.stopWith f).cpu.pc = s.cpu.pc := rfl
@[simp] theorem State.stopWith_p (s : State) (f : Fault) : (s.stopWith f).cpu.p = s.cpu.p := rfl
@[simp] theorem State.stopWith_runStatus (s : State) (f : Fault) : (s.stopWith f).cpu.runStatus = .faulted f := rfl
@[simp] theorem State.stopWith_cycles (s : State) (f : Fault) : (s.stopWith f).cpu.cycles = s.cpu.cycles := rfl
@[simp] theorem State.stopWith_idleCycles (s : State) (f : Fault) : (s.stopWith f).cpu.idleCycles = s.cpu.idleCycles := rfl
@[simp] theorem State.stopWith_bus (s : State) (f : Fault) : (s.stopWith f).bus = s.bus := rfl
@[simp] theorem State.stopWith_ppu (s : State) (f : Fault) : (s.stopWith f).ppu = s.ppu := rfl
@[simp] theorem State.stopWith_trace (s : State) (f : Fault) : (s.stopWith f).trace = s.trace := rfl

/-! ### `countDraw` -/

@[simp] theorem countDraw_cfg (s : State) : (countDraw s).cfg = s.cfg := rfl
@[simp] theorem countDraw_cpu (s : State) : (countDraw s).cpu = s.cpu := rfl
@[simp] theorem countDraw_bus (s : State) : (countDraw s).bus = { s.bus with openBusDraws := s.bus.openBusDraws + 1 } := rfl
@[simp] theorem countDraw_ppu (s : State) : (countDraw s).ppu = s.ppu := rfl
@[simp] theorem countDraw_trace (s : State) : (countDraw s).trace = s.trace := rfl

/-! ### `push` -/

@[simp] theorem push_cfg (d : Byte) (s : State) : (push d s).cfg = s.cfg := rfl
@[simp] theorem push_a (d : Byte) (s : State) : (push d s).cpu.a = s.cpu.a := rfl
@[simp] theorem push_x (d : Byte) (s : State) : (push d s).cpu.x = s.cpu.x := rfl
@[simp] theorem push_y (d : Byte) (s : State) : (push d s).cpu.y = s.cpu.y := rfl
@[simp] theorem push_sp (d : Byte) (s : State) : (push d s).cpu.sp = s.cpu.sp - 1 := rfl
@[simp] theorem push_pc (d : Byte) (s : State) : (push d s).cpu.pc = s.cpu.pc := rfl
@[simp] theorem push_p (d : Byte) (s : State) : (push d s).cpu.p = s.cpu.p := rfl
@[simp] theorem push_runStatus (d : Byte) (s : State) : (push d s).cpu.runStatus = s.cpu.runStatus := rfl
@[simp] theorem push_cycles (d : Byte) (s : State) : (push d s).cpu.cycles = s.cpu.cycles := rfl
@[simp] theorem push_idleCycles (d : Byte) (s : State) : (push d s).cpu.idleCycles = s.cpu.idleCycles := rfl
@[simp] theorem push_bus (d : Byte) (s : State) : (push d s).bus = { s.bus with ram := s.bus.ram.write (stackIndex s.cpu.sp) d } := rfl
@[simp] theorem push_ppu (d : Byte) (s : State) : (push d s).ppu = s.ppu := rfl
@[simp] theorem push_trace (d : Byte) (s : State) : (push d s).trace = s.trace := rfl

/-! ### `afterPull` -/

@[simp] theorem afterPull_cfg (s : State) : (afterPull s).cfg = s.cfg := rfl
@[simp] theorem afterPull_a (s : State) : (afterPull s).cpu.a = s.cpu.a := rfl
@[simp] theorem afterPull_x (s : State) : (afterPull s).cpu.x = s.cpu.x := rfl
@[simp] theorem afterPull_y (s : State) : (afterPull s).cpu.y = s.cpu.y := rfl
@[simp] theorem afterPull_sp (s : State) : (afterPull s).cpu.sp = s.cpu.sp + 1 := rfl
@[simp] theorem afterPull_pc (s : State) : (afterPull s).cpu.pc = s.cpu.pc := rfl
@[simp] theorem afterPull_p (s : State) : (afterPull s).cpu.p = s.cpu.p := rfl
@[simp] theorem afterPull_runStatus (s : State) : (afterPull s).cpu.runStatus = s.cpu.runStatus := rfl
@[simp] theorem afterPull_cycles (s : State) : (afterPull s).cpu.cycles = s.cpu.cycles := rfl
@[simp] theorem afterPull_idleCycles (s : State) : (afterPull s).cpu.idleCycles = s.cpu.idleCycles := rfl
@[simp] theorem afterPull_bus (s : State) : (afterPull s).bus = s.bus := rfl
@[simp] theorem afterPull_ppu (s : State) : (afterPull s).ppu = s.ppu := rfl
@[simp] theorem afterPull_trace (s : State) : (afterPull s).trace = s.trace := rfl

/-! ### `charge` -/

@[simp] theorem charge_cfg (n : Nat) (s : State) : (charge n s).cfg = s.cfg := rfl
@[simp] theorem charge_a (n : Nat) (s : State) : (charge n s).cpu.a = s.cpu.a := rfl
@[simp] theorem charge_x (n : Nat) (s : State) : (charge n s).cpu.x = s.cpu.x := rfl
@[simp] theorem charge_y (n : Nat) (s : State) : (charge n s).cpu.y = s.cpu.y := rfl
@[simp] theorem charge_sp (n : Nat) (s : State) : (charge n s).cpu.sp = s.cpu.sp := rfl
@[simp] theorem charge_pc (n : Nat) (s : State) : (charge n s).cpu.pc = s.cpu.pc := rfl
@[simp] theorem charge_p (n : Nat) (s : State) : (charge n s).cpu.p = s.cpu.p := rfl
@[simp] theorem charge_runStatus (n : Nat) (s : State) : (charge n s).cpu.runStatus = s.cpu.runStatus := rfl
@[simp] theorem charge_cycles (n : Nat) (s : State) : (charge n s).cpu.cycles = s.cpu.cycles := rfl
@[simp] theorem charge_idleCycles (n : Nat) (s : State) : (charge n s).cpu.idleCycles = s.cpu.idleCycles + n := rfl
@[simp] theorem charge_bus (n : Nat) (s : State) : (charge n s).bus = s.bus := rfl
@[simp] theorem charge_ppu (n : Nat) (s : State) : (charge n s).ppu = s.ppu := rfl
@[simp] theorem charge_trace (n : Nat) (s : State) : (charge n s).trace = s.trace := rfl

/-! ### `retire` -/

@[simp] theorem retire_cfg (pc : Word) (n : Nat) (s : State) : (retire pc n s).cfg = s.cfg := rfl
@[simp] theorem retire_a (pc : Word) (n : Nat) (s : State) : (retire pc n s).cpu.a = s.cpu.a := rfl
@[simp] theorem retire_x (pc : Word) (n : Nat) (s : State) : (retire pc n s).cpu.x = s.cpu.x := rfl
@[simp] theorem retire_y (pc : Word) (n : Nat) (s : State) : (retire pc n s).cpu.y = s.cpu.y := rfl
@[simp] theorem retire_sp (pc : Word) (n : Nat) (s : State) : (retire pc n s).cpu.sp = s.cpu.sp := rfl
@[simp] theorem retire_pc (pc : Word) (n : Nat) (s : State) : (retire pc n s).cpu.pc = pc := rfl
@[simp] theorem retire_p (pc : Word) (n : Nat) (s : State) : (retire pc n s).cpu.p = s.cpu.p := rfl
@[simp] theorem retire_runStatus (pc : Word) (n : Nat) (s : State) : (retire pc n s).cpu.runStatus = s.cpu.runStatus := rfl
@[simp] theorem retire_cycles (pc : Word) (n : Nat) (s : State) : (retire pc n s).cpu.cycles = s.cpu.cycles := rfl
@[simp] theorem retire_idleCycles (pc : Word) (n : Nat) (s : State) : (retire pc n s).cpu.idleCycles = s.cpu.idleCycles + n := rfl
@[simp] theorem retire_bus (pc : Word) (n : Nat) (s : State) : (retire pc n s).bus = s.bus := rfl
@[simp] theorem retire_ppu (pc : Word) (n : Nat) (s : State) : (retire pc n s).ppu = s.ppu := rfl
@[simp] theorem retire_trace (pc : Word) (n : Nat) (s : State) : (retire pc n s).trace = s.trace := rfl

/-! ### `advance` -/

@[simp] theorem advance_cfg (len : Word) (n : Nat) (s : State) : (advance len n s).cfg = s.cfg := rfl
@[simp] theorem advance_a (len : Word) (n : Nat) (s : State) : (advance len n s).cpu.a = s.cpu.a := rfl
@[simp] theorem advance_x (len : Word) (n : Nat) (s : State) : (advance len n s).cpu.x = s.cpu.x := rfl
@[simp] theorem advance_y (len : Word) (n : Nat) (s : State) : (advance len n s).cpu.y = s.cpu.y := rfl
@[simp] theorem advance_sp (len : Word) (n : Nat) (s : State) : (advance len n s).cpu.sp = s.cpu.sp := rfl
@[simp] theorem advance_pc (len : Word) (n : Nat) (s : State) : (advance len n s).cpu.pc = s.cpu.pc + len := rfl
@[simp] theorem advance_p (len : Word) (n : Nat) (s : State) : (advance len n s).cpu.p = s.cpu.p := rfl
@[simp] theorem advance_runStatus (len : Word) (n : Nat) (s : State) : (advance len n s).cpu.runStatus = s.cpu.runStatus := rfl
@[simp] theorem advance_cycles (len : Word) (n : Nat) (s : State) : (advance len n s).cpu.cycles = s.cpu.cycles := rfl
@[simp] theorem advance_idleCycles (len : Word) (n : Nat) (s : State) : (advance len n s).cpu.idleCycles = s.cpu.idleCycles + n := rfl
@[simp] theorem advance_bus (len : Word) (n : Nat) (s : State) : (advance len n s).bus = s.bus := rfl
@[simp] theorem advance_ppu (len : Word) (n : Nat) (s : State) : (advance len n s).ppu = s.ppu := rfl
@[simp] theorem advance_trace (len : Word) (n : Nat) (s : State) : (advance len n s).trace = s.trace := rfl

/-! ### `loadA` -/

@[simp] theorem loadA_cfg (v : Byte) (s : State) : (loadA v s).cfg = s.cfg := rfl
@[simp] theorem loadA_a (v : Byte) (s : State) : (loadA v s).cpu.a = v := rfl
@[simp] theorem loadA_x (v : Byte) (s : State) : (loadA v s).cpu.x = s.cpu.x := rfl
@[simp] theorem loadA_y (v : Byte) (s : State) : (loadA v s).cpu.y = s.cpu.y := rfl
@[simp] theorem loadA_sp (v : Byte) (s : State) : (loadA v s).cpu.sp = s.cpu.sp := rfl
@[simp] theorem loadA_pc (v : Byte) (s : State) : (loadA v s).cpu.pc = s.cpu.pc := rfl
@[simp] theorem loadA_p (v : Byte) (s : State) : (loadA v s).cpu.p = setZN v s.cpu.p := rfl
@[simp] theorem loadA_runStatus (v : Byte) (s : State) : (loadA v s).cpu.runStatus = s.cpu.runStatus := rfl
@[simp] theorem loadA_cycles (v : Byte) (s : State) : (loadA v s).cpu.cycles = s.cpu.cycles := rfl
@[simp] theorem loadA_idleCycles (v : Byte) (s : State) : (loadA v s).cpu.idleCycles = s.cpu.idleCycles := rfl
@[simp] theorem loadA_bus (v : Byte) (s : State) : (loadA v s).bus = s.bus := rfl
@[simp] theorem loadA_ppu (v : Byte) (s : State) : (loadA v s).ppu = s.ppu := rfl
@[simp] theorem loadA_trace (v : Byte) (s : State) : (loadA v s).trace = s.trace := rfl

/-! ### `loadX` -/

@[simp] theorem loadX_cfg (v : Byte) (s : State) : (loadX v s).cfg = s.cfg := rfl
@[simp] theorem loadX_a (v : Byte) (s : State) : (loadX v s).cpu.a = s.cpu.a := rfl
@[simp] theorem loadX_x (v : Byte) (s : State) : (loadX v s).cpu.x = v := rfl
@[simp] theorem loadX_y (v : Byte) (s : State) : (loadX v s).cpu.y = s.cpu.y := rfl
@[simp] theorem loadX_sp (v : Byte) (s : State) : (loadX v s).cpu.sp = s.cpu.sp := rfl
@[simp] theorem loadX_pc (v : Byte) (s : State) : (loadX v s).cpu.pc = s.cpu.pc := rfl
@[simp] theorem loadX_p (v : Byte) (s : State) : (loadX v s).cpu.p = setZN v s.cpu.p := rfl
@[simp] theorem loadX_runStatus (v : Byte) (s : State) : (loadX v s).cpu.runStatus = s.cpu.runStatus := rfl
@[simp] theorem loadX_cycles (v : Byte) (s : State) : (loadX v s).cpu.cycles = s.cpu.cycles := rfl
@[simp] theorem loadX_idleCycles (v : Byte) (s : State) : (loadX v s).cpu.idleCycles = s.cpu.idleCycles := rfl
@[simp] theorem loadX_bus (v : Byte) (s : State) : (loadX v s).bus = s.bus := rfl
@[simp] theorem loadX_ppu (v : Byte) (s : State) : (loadX v s).ppu = s.ppu := rfl
@[simp] theorem loadX_trace (v : Byte) (s : State) : (loadX v s).trace = s.trace := rfl

/-! ### `loadY` -/

@[simp] theorem loadY_cfg (v : Byte) (s : State) : (loadY v s).cfg = s.cfg := rfl
@[simp] theorem loadY_a (v : Byte) (s : State) : (loadY v s).cpu.a = s.cpu.a := rfl
@[simp] theorem loadY_x (v : Byte) (s : State) : (loadY v s).cpu.x = s.cpu.x := rfl
@[simp] theorem loadY_y (v : Byte) (s : State) : (loadY v s).cpu.y = v := rfl
@[simp] theorem loadY_sp (v : Byte) (s : State) : (loadY v s).cpu.sp = s.cpu.sp := rfl
@[simp] theorem loadY_pc (v : Byte) (s : State) : (loadY v s).cpu.pc = s.cpu.pc := rfl
@[simp] theorem loadY_p (v : Byte) (s : State) : (loadY v s).cpu.p = setZN v s.cpu.p := rfl
@[simp] theorem loadY_runStatus (v : Byte) (s : State) : (loadY v s).cpu.runStatus = s.cpu.runStatus := rfl
@[simp] theorem loadY_cycles (v : Byte) (s : State) : (loadY v s).cpu.cycles = s.cpu.cycles := rfl
@[simp] theorem loadY_idleCycles (v : Byte) (s : State) : (loadY v s).cpu.idleCycles = s.cpu.idleCycles := rfl
@[simp] theorem loadY_bus (v : Byte) (s : State) : (loadY v s).bus = s.bus := rfl
@[simp] theorem loadY_ppu (v : Byte) (s : State) : (loadY v s).ppu = s.ppu := rfl
@[simp] theorem loadY_trace (v : Byte) (s : State) : (loadY v s).trace = s.trace := rfl

/-! ### `setStatus` -/

@[simp] theorem setStatus_cfg (p : Byte) (s : State) : (setStatus p s).cfg = s.cfg := rfl
@[simp] theorem setStatus_a (p : Byte) (s : State) : (setStatus p s).cpu.a = s.cpu.a := rfl
@[simp] theorem setStatus_x (p : Byte) (s : State) : (setStatus p s).cpu.x = s.cpu.x := rfl
@[simp] theorem setStatus_y (p : Byte) (s : State) : (setStatus p s).cpu.y = s.cpu.y := rfl
@[simp] theorem setStatus_sp (p : Byte) (s : State) : (setStatus p s).cpu.sp = s.cpu.sp := rfl
@[simp] theorem setStatus_pc (p : Byte) (s : State) : (setStatus p s).cpu.pc = s.cpu.pc := rfl
@[simp] theorem setStatus_p (p : Byte) (s : State) : (setStatus p s).cpu.p = p := rfl
@[simp] theorem setStatus_runStatus (p : Byte) (s : State) : (setStatus p s).cpu.runStatus = s.cpu.runStatus := rfl
@[simp] theorem setStatus_cycles (p : Byte) (s : State) : (setStatus p s).cpu.cycles = s.cpu.cycles := rfl
@[simp] theorem setStatus_idleCycles (p : Byte) (s : State) : (setStatus p s).cpu.idleCycles = s.cpu.idleCycles := rfl
@[simp] theorem setStatus_bus (p : Byte) (s : State) : (setStatus p s).bus = s.bus := rfl
@[simp] theorem setStatus_ppu (p : Byte) (s : State) : (setStatus p s).ppu = s.ppu := rfl
@[simp] theorem setStatus_trace (p : Byte) (s : State) : (setStatus p s).trace = s.trace := rfl

/-! ### `startDma` -/

@[simp] theorem startDma_cfg (d : Byte) (s : State) : (startDma d s).cfg = s.cfg := rfl
@[simp] theorem startDma_a (d : Byte) (s : State) : (startDma d s).cpu.a = s.cpu.a := rfl
@[simp] theorem startDma_x (d : Byte) (s : State) : (startDma d s).cpu.x = s.cpu.x := rfl
@[simp] theorem startDma_y (d : Byte) (s : State) : (startDma d s).cpu.y = s.cpu.y := rfl
@[simp] theorem startDma_sp (d : Byte) (s : State) : (startDma d s).cpu.sp = s.cpu.sp := rfl
@[simp] theorem startDma_pc (d : Byte) (s : State) : (startDma d s).cpu.pc = s.cpu.pc := rfl
@[simp] theorem startDma_p (d : Byte) (s : State) : (startDma d s).cpu.p = s.cpu.p := rfl
@[simp] theorem startDma_runStatus (d : Byte) (s : State) : (startDma d s).cpu.runStatus = s.cpu.runStatus := rfl
@[simp] theorem startDma_cycles (d : Byte) (s : State) : (startDma d s).cpu.cycles = s.cpu.cycles := rfl
@[simp] theorem startDma_idleCycles (d : Byte) (s : State) : (startDma d s).cpu.idleCycles = s.cpu.idleCycles + (513 + s.cpu.cycles % 2) := rfl
@[simp] theorem startDma_bus (d : Byte) (s : State) : (startDma d s).bus = 
      { s.bus with dma := { s.bus.dma with active := true, page := d, count := 0, align := 1 + s.cpu.cycles % 2, phase := .read } } := rfl
@[simp] theorem startDma_ppu (d : Byte) (s : State) : (startDma d s).ppu = s.ppu := rfl
@[simp] theorem startDma_trace (d : Byte) (s : State) : (startDma d s).trace = s.trace := rfl

/-! ### `emitTrace` -/

@[simp] theorem emitTrace_cfg (op : Byte) (s : State) : (emitTrace op s).cfg = s.cfg := rfl
@[simp] theorem emitTrace_cpu (op : Byte) (s : State) : (emitTrace op s).cpu = s.cpu := rfl
@[simp] theorem emitTrace_bus (op : Byte) (s : State) : (emitTrace op s).bus = s.bus := rfl
@[simp] theorem emitTrace_ppu (op : Byte) (s : State) : (emitTrace op s).ppu = s.ppu := rfl
@[simp] theorem emitTrace_trace (op : Byte) (s : State) : (emitTrace op s).trace = traceLine op s.cpu :: s.trace := rfl

/-! ### `countCycle` -/

@[simp] theorem countCycle_cfg (s : State) : (countCycle s).cfg = s.cfg := rfl
@[simp] theorem countCycle_a (s : State) : (countCycle s).cpu.a = s.cpu.a := rfl
@[simp] theorem countCycle_x (s : State) : (countCycle s).cpu.x = s.cpu.x := rfl
@[simp] theorem countCycle_y (s : State) : (countCycle s).cpu.y = s.cpu.y := rfl
@[simp] theorem countCycle_sp (s : State) : (countCycle s).cpu.sp = s.cpu.sp := rfl
@[simp] theorem countCycle_pc (s : State) : (countCycle s).cpu.pc = s.cpu.pc := rfl
@[simp] theorem countCycle_p (s : State) : (countCycle s).cpu.p = s.cpu.p := rfl
@[simp] theorem countCycle_runStatus (s : State) : (countCycle s).cpu.runStatus = s.cpu.runStatus := rfl
@[simp] theorem countCycle_cycles (s : State) : (countCycle s).cpu.cycles = s.cpu.cycles + 1 := rfl
@[simp] theorem countCycle_idleCycles (s : State) : (countCycle s).cpu.idleCycles = s.cpu.idleCycles := rfl
@[simp] theorem countCycle_bus (s : State) : (countCycle s).bus = s.bus := rfl
@[simp] theorem countCycle_ppu (s : State) : (countCycle s).ppu = s.ppu := rfl
@[simp] theorem countCycle_trace (s : State) : (countCycle s).trace = s.trace := rfl

/-! ### `ppuTick` -/

@[simp] theorem ppuTick_cfg (s : State) : (ppuTick s).cfg = s.cfg := rfl
@[simp] theorem ppuTick_cpu (s : State) : (ppuTick s).cpu = s.cpu := rfl
@[simp] theorem ppuTick_bus (s : State) : (ppuTick s).bus = 
      { s.bus with nmiGenerated := s.bus.nmiGenerated || raisesNmi s.ppu, clockDiv := s.bus.clockDiv + 1 } := rfl
@[simp] theorem ppuTick_ppu (s : State) : (ppuTick s).ppu = ppuStep s.cfg s.ppu := rfl
@[simp] theorem ppuTick_trace (s : State) : (ppuTick s).trace = s.trace := rfl

/-! ### Taking an interrupt and returning from one -/

@[simp] theorem takeInterrupt_cfg (ret : Word) (p : Byte) (v : Word) (s : State) : (takeInterrupt ret p v s).cfg = s.cfg := rfl
@[simp] theorem takeInterrupt_ppu (ret : Word) (p : Byte) (v : Word) (s : State) : (takeInterrupt ret p v s).ppu = s.ppu := rfl
@[simp] theorem takeInterrupt_trace (ret : Word) (p : Byte) (v : Word) (s : State) :
    (takeInterrupt ret p v s).trace = s.trace := rfl
@[simp] theorem takeInterrupt_p (ret : Word) (p : Byte) (v : Word) (s : State) :
    (takeInterrupt ret p v s).cpu.p = setFlag .interruptDisable true s.cpu.p := rfl
@[simp] theorem takeInterrupt_pc (ret : Word) (p : Byte) (v : Word) (s : State) :
    (takeInterrupt ret p v s).cpu.pc = vectorAt s.cfg v := rfl
@[simp] theorem takeInterrupt_sp (ret : Word) (p : Byte) (v : Word) (s : State) :
    (takeInterrupt ret p v s).cpu.sp = s.cpu.sp - 1 - 1 - 1 := rfl
@[simp] theorem takeInterrupt_runStatus (ret : Word) (p : Byte) (v : Word) (s : State) :
    (takeInterrupt ret p v s).cpu.runStatus = s.cpu.runStatus := rfl
@[simp] theorem takeInterrupt_idleCycles (ret : Word) (p : Byte) (v : Word) (s : State) :
    (takeInterrupt ret p v s).cpu.idleCycles = s.cpu.idleCycles := rfl
@[simp] theorem nmiEntry_cfg (s : State) : (nmiEntry s).cfg = s.cfg := rfl
@[simp] theorem nmiEntry_ppu (s : State) : (nmiEntry s).ppu = s.ppu := rfl
@[simp] theorem nmiEntry_trace (s : State) : (nmiEntry s).trace = s.trace := rfl
@[simp] theorem nmiEntry_runStatus (s : State) : (nmiEntry s).cpu.runStatus = s.cpu.runStatus := rfl
@[simp] theorem returnFromInterrupt_cfg (s : State) : (returnFromInterrupt s).cfg = s.cfg := rfl
@[simp] theorem returnFromInterrupt_bus (s : State) : (returnFromInterrupt s).bus = s.bus := rfl
@[simp] theorem returnFromInterrupt_ppu (s : State) : (returnFromInterrupt s).ppu = s.ppu := rfl
@[simp] theorem returnFromInterrupt_trace (s : State) : (returnFromInterrupt s).trace = s.trace := rfl
@[simp] theorem takeInterrupt_cycles (ret : Word) (p : Byte) (v : Word) (s : State) :
    (takeInterrupt ret p v s).cpu.cycles = s.cpu.cycles := rfl
@[simp] theorem nmiEntry_p (s : State) : (nmiEntry s).cpu.p = setFlag .interruptDisable true s.cpu.p := rfl
@[simp] theorem nmiEntry_cycles (s : State) : (nmiEntry s).cpu.cycles = s.cpu.cycles := rfl
@[simp] theorem returnFromInterrupt_p (s : State) : (returnFromInterrupt s).cpu.p = pulledStatus (pulledByte s) := rfl
@[simp] theorem returnFromInterrupt_runStatus (s : State) : (returnFromInterrupt s).cpu.runStatus = s.cpu.runStatus := rfl
@[simp] theorem returnFromInterrupt_cycles (s : State) : (returnFromInterrupt s).cpu.cycles = s.cpu.cycles := rfl
@[simp] theorem returnFromInterrupt_idleCycles (s : State) :
    (returnFromInterrupt s).cpu.idleCycles = s.cpu.idleCycles := rfl

end Sys2Proof.Machine
end

