-- ==== Sys2Proof/Laws/Bus.lean ====
section
/-!
SUPPORT. What a bus access can do: which accesses go through, what they leave alone, and the fault of one that does not. The
lemmas about instructions cite these and do not unfold the address decode.
-/

namespace Sys2Proof.Machine

/-- Register 7 is the data port, and no other is. -/
theorem ppuRegOf_eq_data (n : Nat) : ppuRegOf n = .data ↔ n % 8 = 7 := by
  have h : n % 8 < 8 := Nat.mod_lt _ (by decide)
  rw [ppuRegOf]
  generalize n % 8 = k at h ⊢
  interval_cases k <;> simp

/-- Register 4 is the OAM data port, and no other is. -/
theorem ppuRegOf_eq_oamData (n : Nat) : ppuRegOf n = .oamData ↔ n % 8 = 4 := by
  have h : n % 8 < 8 := Nat.mod_lt _ (by decide)
  rw [ppuRegOf]
  generalize n % 8 = k at h ⊢
  interval_cases k <;> simp

/-- An address falls in the PPU registers exactly in `$2000–$3FFF`. -/
theorem regionOf_ppu (cfg : Config) (a : Word) (r : PpuReg) :
    regionOf cfg a = .ppu r ↔ 0x2000 ≤ a.toNat ∧ a.toNat < 0x4000 ∧ ppuRegOf a.toNat = r := by
  simp only [regionOf]
  split_ifs <;> simp_all

/-- An address falls in PRG ROM exactly from `$8000` on. -/
theorem regionOf_prgRom (cfg : Config) (a : Word) (i : Nat) :
    regionOf cfg a = .prgRom i ↔ 0x8000 ≤ a.toNat ∧ (a.toNat - 0x8000) % cfg.prgSize.bytes = i := by
  simp only [regionOf]
  split_ifs <;> simp_all <;> omega

/-- `$4014`. -/
theorem regionOf_oamDma (cfg : Config) (a : Word) : regionOf cfg a = .oamDma ↔ a = 0x4014 := by
  rw [← BitVec.toNat_inj]
  simp only [regionOf]
  split_ifs <;> simp_all <;> omega

/-- The indices of the memory regions lie in the memories. -/
theorem regionOf_bounds (cfg : Config) (a : Word) :
    (∀ i, regionOf cfg a = .ram i → i < 2048) ∧ (∀ i, regionOf cfg a = .scratch i → i < 8160) ∧
      (∀ i, regionOf cfg a = .prgRam i → i < 8192) ∧ (∀ i, regionOf cfg a = .prgRom i → i < cfg.prgSize.bytes) := by
  have hp : 0 < cfg.prgSize.bytes := by cases cfg.prgSize <;> decide
  have := a.isLt
  simp only [regionOf]
  refine ⟨?_, ?_, ?_, ?_⟩ <;> intro i <;> split_ifs <;> simp <;> intro h <;> subst h
  · omega
  · omega
  · omega
  · exact Nat.mod_lt _ hp

/-- What a bus read leaves alone: everything but the controllers' cursors, the draw count, the read buffer, v, w and VBlank. -/
structure ReadFrame (s t : State) : Prop where
  cpu : t.cpu = s.cpu
  cfg : t.cfg = s.cfg
  trace : t.trace = s.trace
  bus : t.bus = { s.bus with
    pad0 := { s.bus.pad0 with cursor := t.bus.pad0.cursor }
    pad1 := { s.bus.pad1 with cursor := t.bus.pad1.cursor }
    openBusDraws := t.bus.openBusDraws }
  ppu : t.ppu = { s.ppu with
    status := { s.ppu.status with vblank := t.ppu.status.vblank }
    readBuffer := t.ppu.readBuffer
    v := t.ppu.v
    w := t.ppu.w }

theorem ReadFrame.refl (s : State) : ReadFrame s s := ⟨rfl, rfl, rfl, rfl, rfl⟩

/-- A PPU register read: it goes through unless it is the data port with v at `$4000` or above. -/
theorem ppuRegRead_spec (r : PpuReg) (s : State) :
    match ppuRegRead r s with
    | .done _ t => (r = .data → s.ppu.v.toNat < 0x4000) ∧ ReadFrame s t ∧ (r ≠ .data → t.ppu.v = s.ppu.v)
    | .stopped f t => r = .data ∧ 0x4000 ≤ s.ppu.v.toNat ∧ f = .ppuAddressOutOfRange s.ppu.v ∧ t = s := by
  cases r
  case data =>
    dsimp only [ppuRegRead, readData]
    by_cases h1 : 0x4000 ≤ s.ppu.v.toNat
    · rw [if_pos h1]
      exact ⟨rfl, h1, rfl, rfl⟩
    · rw [if_neg h1]
      split_ifs <;> exact ⟨fun _ => by omega, ⟨rfl, rfl, rfl, rfl, rfl⟩, fun h => absurd rfl h⟩
  all_goals
    exact ⟨(fun h => nomatch h), ⟨rfl, rfl, rfl, rfl, rfl⟩, fun _ => rfl⟩

/-- All that a bus read can do. -/
theorem memRead_spec (a : Word) (s : State) :
    match memRead a s with
    | .done _ t => Readable s a ∧ ReadFrame s t ∧ (¬IsDataPort a → t.ppu.v = s.ppu.v)
    | .stopped f t => ¬Readable s a ∧ f = .ppuAddressOutOfRange s.ppu.v ∧ t = s := by
  rw [memRead]
  cases hr : regionOf s.cfg a with
  | ppu r =>
    obtain ⟨h1, h2, h3⟩ := (regionOf_ppu _ _ _).1 hr
    have hd : IsDataPort a ↔ r = .data := by
      rw [← h3, ppuRegOf_eq_data]
      exact ⟨fun h => h.2.2, fun h => ⟨h1, h2, h⟩⟩
    have := ppuRegRead_spec r s
    dsimp only
    revert this
    generalize ppuRegRead r s = x
    cases x <;> dsimp only [Readable] <;> intro h
    · exact ⟨fun ha => h.1 (hd.1 ha), h.2.1, fun ha => h.2.2 fun hr => ha (hd.2 hr)⟩
    · exact ⟨fun ha => by have := ha (hd.2 h.1); omega, h.2.2⟩
  | _ =>
    have hd : ¬IsDataPort a := by
      intro h
      have := (regionOf_ppu s.cfg a _).2 ⟨h.1, h.2.1, rfl⟩
      rw [hr] at this
      cases this
    refine ⟨fun h => absurd h hd, ?_, fun _ => rfl⟩
    first
      | exact ReadFrame.refl s
      | (refine ⟨rfl, rfl, rfl, ?_, rfl⟩
         simp only [State.mapBus_bus, padAdvance, countDraw_bus]
         try (split <;> rfl))

theorem memRead_done (a : Word) (s : State) (h : Readable s a) : ∃ v t, memRead a s = .done v t := by
  have := memRead_spec a s
  revert this
  cases memRead a s with
  | done v t => exact fun _ => ⟨v, t, rfl⟩
  | stopped f t => exact fun h' => absurd h h'.1

theorem memRead_stopped (a : Word) (s : State) (h : ¬Readable s a) :
    memRead a s = .stopped (.ppuAddressOutOfRange s.ppu.v) s := by
  have := memRead_spec a s
  revert this
  cases memRead a s with
  | done v t => exact fun h' => absurd h'.1 h
  | stopped f t => rintro ⟨-, rfl, rfl⟩; rfl

theorem memRead_frame {a : Word} {s t : State} {v : Byte} (h : memRead a s = .done v t) : ReadFrame s t := by
  have := memRead_spec a s
  rw [h] at this
  exact this.2.1

theorem memRead_readable {a : Word} {s t : State} {v : Byte} (h : memRead a s = .done v t) : Readable s a := by
  have := memRead_spec a s
  rw [h] at this
  exact this.1

theorem memRead_v {a : Word} {s t : State} {v : Byte} (h : memRead a s = .done v t) (ha : ¬IsDataPort a) :
    t.ppu.v = s.ppu.v := by
  have := memRead_spec a s
  rw [h] at this
  exact this.2.2 ha

/-- A read of the data port steps v (R344). -/
theorem memRead_dataPort_v {a : Word} {s t : State} {v : Byte} (h : memRead a s = .done v t) (ha : IsDataPort a) :
    t.ppu.v.toNat = (s.ppu.v.toNat + vStep s) % 0x8000 ∧ t.ppu.ctrl = s.ppu.ctrl := by
  have hr := (regionOf_ppu s.cfg a .data).2 ⟨ha.1, ha.2.1, (ppuRegOf_eq_data _).2 ha.2.2⟩
  have hv := memRead_readable h ha
  rw [memRead, hr] at h
  simp only [ppuRegRead, readData, show ¬(0x4000 ≤ s.ppu.v.toNat) by omega, if_false] at h
  split_ifs at h <;> cases h <;> simp [vIncrement, vStep] <;> split <;> simp

/-- A memory region reads without a side effect, and never faults. -/
theorem memRead_of_peek {a : Word} {s : State} {v : Byte} (h : peek s a = some v) : memRead a s = .done v s := by
  rw [peek] at h
  rw [memRead]
  cases hr : regionOf s.cfg a <;> simp_all

/-- Outside `$2000–$401F` a read is a read of plain memory: no side effect at all. -/
theorem memRead_plain {a : Word} {s t : State} {v : Byte} (h : memRead a s = .done v t)
    (ha : a.toNat < 0x2000 ∨ 0x4020 ≤ a.toNat) : t = s := by
  rw [memRead] at h
  simp only [regionOf] at h
  split_ifs at h <;> first | omega | (cases h; rfl)

/-- Outside the PPU registers a read leaves the PPU alone. -/
theorem memRead_ppu {a : Word} {s t : State} {v : Byte} (h : memRead a s = .done v t)
    (ha : a.toNat < 0x2000 ∨ 0x4000 ≤ a.toNat) : t.ppu = s.ppu := by
  rw [memRead] at h
  simp only [regionOf] at h
  split_ifs at h <;> first | omega | (cases h; rfl)

/-! ### Writes -/

/-- What a bus write leaves alone. -/
structure WriteFrame (s t : State) : Prop where
  cfg : t.cfg = s.cfg
  trace : t.trace = s.trace
  cpu : t.cpu = { s.cpu with idleCycles := t.cpu.idleCycles }
  bus : t.bus = { s.bus with
    ram := t.bus.ram
    scratch := t.bus.scratch
    prgRam := t.bus.prgRam
    pad0 := { s.bus.pad0 with cursor := t.bus.pad0.cursor }
    pad1 := { s.bus.pad1 with cursor := t.bus.pad1.cursor }
    strobe := t.bus.strobe
    dma := t.bus.dma }
  ppu : t.ppu = { s.ppu with
    ctrl := t.ppu.ctrl
    mask := t.ppu.mask
    oamAddr := t.ppu.oamAddr
    vram := t.ppu.vram
    palette := t.ppu.palette
    oam := t.ppu.oam
    v := t.ppu.v
    t := t.ppu.t
    fineX := t.ppu.fineX
    w := t.ppu.w }

theorem WriteFrame.refl (s : State) : WriteFrame s s := ⟨rfl, rfl, rfl, rfl, rfl⟩

/-- A PPU register write: it goes through unless it is the data port with v off `$2000–$3FFF`. -/
theorem ppuRegWrite_spec (r : PpuReg) (d : Byte) (s : State) :
    match ppuRegWrite r d s with
    | .done _ t => (r = .data → 0x2000 ≤ s.ppu.v.toNat ∧ s.ppu.v.toNat < 0x4000) ∧ WriteFrame s t ∧ t.cpu = s.cpu ∧ t.bus = s.bus
    | .stopped f t =>
      r = .data ∧ ¬(0x2000 ≤ s.ppu.v.toNat ∧ s.ppu.v.toNat < 0x4000) ∧
        f = (if s.ppu.v.toNat < 0x2000 then .chrRomWrite s.ppu.v else .ppuAddressOutOfRange s.ppu.v) ∧ t = s := by
  cases r
  case data =>
    dsimp only [ppuRegWrite, writeData]
    by_cases h1 : s.ppu.v.toNat < 0x2000
    · rw [if_pos h1, if_pos h1]
      exact ⟨rfl, by omega, rfl, rfl⟩
    · rw [if_neg h1, if_neg h1]
      by_cases h2 : 0x4000 ≤ s.ppu.v.toNat
      · rw [if_pos h2]
        exact ⟨rfl, by omega, rfl, rfl⟩
      · rw [if_neg h2]
        refine ⟨fun _ => by omega, ⟨rfl, rfl, rfl, rfl, ?_⟩, rfl, rfl⟩
        simp only [State.mapPpu_ppu, vIncrement, ppuStore]
        split <;> rfl
  case scroll =>
    refine ⟨(fun h => nomatch h), ⟨rfl, rfl, rfl, rfl, ?_⟩, rfl, rfl⟩
    simp only [State.mapPpu_ppu, writeScroll]
    split <;> rfl
  case addr =>
    refine ⟨(fun h => nomatch h), ⟨rfl, rfl, rfl, rfl, ?_⟩, rfl, rfl⟩
    simp only [State.mapPpu_ppu, writeAddr]
    split <;> rfl
  all_goals
    exact ⟨(fun h => nomatch h), ⟨rfl, rfl, rfl, rfl, rfl⟩, rfl, rfl⟩

/-- All that a bus write can do. -/
theorem memWrite_spec (a : Word) (d : Byte) (s : State) :
    match memWrite a d s with
    | .done _ t => Writable s a ∧ WriteFrame s t ∧ (a ≠ 0x4014 → t.cpu = s.cpu)
    | .stopped f t => ¬Writable s a ∧ f = writeFault s a ∧ t = s := by
  rw [memWrite]
  cases hr : regionOf s.cfg a with
  | ppu r =>
    obtain ⟨h1, h2, h3⟩ := (regionOf_ppu _ _ _).1 hr
    have hd : IsDataPort a ↔ r = .data := by
      rw [← h3, ppuRegOf_eq_data]
      exact ⟨fun h => h.2.2, fun h => ⟨h1, h2, h⟩⟩
    have := ppuRegWrite_spec r d s
    dsimp only
    revert this
    generalize ppuRegWrite r d s = x
    cases x <;> dsimp only [Writable, writeFault] <;> intro h
    · exact ⟨⟨by omega, fun ha => h.1 (hd.1 ha)⟩, h.2.1, fun _ => h.2.2.1⟩
    · rw [if_neg (show ¬(0x8000 ≤ a.toNat) by omega)]
      exact ⟨fun hw => h.2.1 (hw.2 (hd.2 h.1)), h.2.2⟩
  | prgRom i =>
    obtain ⟨h1, -⟩ := (regionOf_prgRom _ _ _).1 hr
    refine ⟨fun h => by have := h.1; omega, ?_, rfl⟩
    rw [writeFault, if_pos h1]
  | oamDma =>
    have ha := (regionOf_oamDma _ _).1 hr
    subst ha
    exact ⟨⟨by decide, fun h => absurd h (by decide)⟩, ⟨rfl, rfl, rfl, rfl, rfl⟩, fun h => absurd rfl h⟩
  | _ =>
    have hd : ¬IsDataPort a := by
      intro h
      have := (regionOf_ppu s.cfg a _).2 ⟨h.1, h.2.1, rfl⟩
      rw [hr] at this
      cases this
    have hl : a.toNat < 0x8000 := by
      by_contra h
      have := (regionOf_prgRom s.cfg a _).2 ⟨by omega, rfl⟩
      rw [hr] at this
      cases this
    refine ⟨⟨hl, fun h => absurd h hd⟩, ?_, fun _ => rfl⟩
    first
      | exact WriteFrame.refl s
      | exact ⟨rfl, rfl, rfl, rfl, rfl⟩
      | (refine ⟨rfl, rfl, rfl, ?_, rfl⟩
         simp only [State.mapBus_bus, writeStrobe]
         split <;> rfl)

theorem memWrite_done (a : Word) (d : Byte) (s : State) (h : Writable s a) : ∃ t, memWrite a d s = .done () t := by
  have := memWrite_spec a d s
  revert this
  cases memWrite a d s with
  | done v t => exact fun _ => ⟨t, rfl⟩
  | stopped f t => exact fun h' => absurd h h'.1

theorem memWrite_stopped (a : Word) (d : Byte) (s : State) (h : ¬Writable s a) :
    memWrite a d s = .stopped (writeFault s a) s := by
  have := memWrite_spec a d s
  revert this
  cases memWrite a d s with
  | done v t => exact fun h' => absurd h'.1 h
  | stopped f t => rintro ⟨-, rfl, rfl⟩; rfl

theorem memWrite_frame {a : Word} {d : Byte} {s t : State} {u : Unit} (h : memWrite a d s = .done u t) : WriteFrame s t := by
  have := memWrite_spec a d s
  rw [h] at this
  exact this.2.1

theorem memWrite_writable {a : Word} {d : Byte} {s t : State} {u : Unit} (h : memWrite a d s = .done u t) : Writable s a := by
  have := memWrite_spec a d s
  rw [h] at this
  exact this.1

/-- Outside `$2000–$401F` a write is a write of plain memory. -/
theorem memWrite_plain {a : Word} {d : Byte} {s t : State} {u : Unit} (h : memWrite a d s = .done u t)
    (ha : a.toNat < 0x2000 ∨ 0x4020 ≤ a.toNat) :
    t.ppu = s.ppu ∧ t.cpu = s.cpu ∧
      t.bus = { s.bus with ram := t.bus.ram, scratch := t.bus.scratch, prgRam := t.bus.prgRam } := by
  rw [memWrite] at h
  simp only [regionOf] at h
  split_ifs at h <;> first | omega | (cases h; exact ⟨rfl, rfl, rfl⟩)

/-- What a write changes of the PPU memories, and where. -/
theorem memWrite_devices {a : Word} {d : Byte} {s t : State} {u : Unit} (h : memWrite a d s = .done u t) :
    (a.toNat < 0x2000 ∨ 0x4000 ≤ a.toNat → t.ppu = s.ppu) ∧
      (¬IsDataPort a → t.ppu.vram = s.ppu.vram ∧ t.ppu.palette = s.ppu.palette) ∧
      (¬(0x2000 ≤ a.toNat ∧ a.toNat < 0x4000 ∧ a.toNat % 8 = 4) → t.ppu.oam = s.ppu.oam) ∧
      (a ≠ 0x4014 → t.bus.dma = s.bus.dma) := by
  rw [memWrite] at h
  cases hr : regionOf s.cfg a <;> rw [hr] at h <;> simp only at h
  case ppu r =>
    obtain ⟨h1, h2, h3⟩ := (regionOf_ppu _ _ _).1 hr
    have hs := ppuRegWrite_spec r d s
    rw [h] at hs
    refine ⟨fun ha => by omega, fun hd => ?_, fun hd => ?_, fun _ => by rw [hs.2.2.2]⟩
    · have hne : r ≠ .data := fun e => hd ⟨h1, h2, (ppuRegOf_eq_data _).1 (h3.trans e)⟩
      refine ⟨?_, ?_⟩ <;> cases r <;> simp only [ppuRegWrite] at h <;> first | exact absurd rfl hne | skip
      all_goals
        cases h
        first | rfl | (simp only [State.mapPpu_ppu, writeScroll, writeAddr]; split <;> rfl)
    · have hne : r ≠ .oamData := fun e => hd ⟨h1, h2, (ppuRegOf_eq_oamData _).1 (h3.trans e)⟩
      cases r <;> simp only [ppuRegWrite, writeData] at h
      case oamData => exact absurd rfl hne
      case data =>
        split_ifs at h
        cases h
        simp only [State.mapPpu_ppu, vIncrement, ppuStore]
        split <;> rfl
      all_goals
        cases h
        first | rfl | (simp only [State.mapPpu_ppu, writeScroll, writeAddr]; split <;> rfl)
  case oamDma =>
    have ha := (regionOf_oamDma _ _).1 hr
    cases h
    exact ⟨fun _ => rfl, fun _ => ⟨rfl, rfl⟩, fun _ => rfl, fun hne => absurd ha hne⟩
  case pad0 =>
    cases h
    refine ⟨fun _ => rfl, fun _ => ⟨rfl, rfl⟩, fun _ => rfl, fun _ => ?_⟩
    simp only [State.mapBus_bus, writeStrobe]
    split <;> rfl
  all_goals
    cases h <;> exact ⟨fun _ => rfl, fun _ => ⟨rfl, rfl⟩, fun _ => rfl, fun _ => rfl⟩

/-- After the read of a `Modifiable` address, the write goes through. -/
theorem writable_after_read {a : Word} {s t : State} {v : Byte} (hm : Modifiable s a) (h : memRead a s = .done v t) :
    Writable t a := by
  refine ⟨hm.1, fun hd => ?_⟩
  obtain ⟨hv, -⟩ := memRead_dataPort_v h hd
  obtain ⟨h1, h2, h3⟩ := hm.2 hd
  omega

/-- A write of plain memory changes what `peek` reads there and nowhere else. -/
theorem peek_after_write {a : Word} {d : Byte} {s t : State} {u : Unit} (h : memWrite a d s = .done u t) (b : Word)
    (hb : regionOf s.cfg b ≠ regionOf s.cfg a) : peek t b = peek s b := by
  have hf := memWrite_frame h
  rw [memWrite] at h
  cases hr : regionOf s.cfg a <;> rw [hr] at h hb <;> simp only at h
  case ppu r =>
    have := ppuRegWrite_spec r d s
    rw [h] at this
    rw [peek, peek, hf.cfg, this.2.2.2]
  case pad0 =>
    cases h
    rw [peek, peek]
    simp only [State.mapBus_cfg, State.mapBus_bus, writeStrobe]
    by_cases hd : d.getLsbD 0 = true <;> simp only [hd] <;> rfl
  all_goals
    cases h <;> first
      | rfl
      | (rw [peek, peek]
         simp only [State.mapBus_cfg, State.mapBus_bus]
         cases hr' : regionOf s.cfg b <;> rw [hr'] at hb <;> simp only <;>
           (try rw [Memory.read_write_ne _ _ (fun he => hb (by rw [he]))]))

/-- A read changes no byte that `peek` reads. -/
theorem ReadFrame.peek {s t : State} (h : ReadFrame s t) (b : Word) : Machine.peek t b = Machine.peek s b := by
  rw [Machine.peek, Machine.peek, h.cfg, h.bus]

end Sys2Proof.Machine
end

