-- ==== Sys2Proof/Laws/Flags.lean ====
section
/-!
SUPPORT. What each flag computation does to each bit of P.
-/

namespace Sys2Proof.Machine

theorem getLsbD_flagMask (f : Flag) (k : Nat) (hk : k < 8) : (flagMask f).getLsbD k = decide (k = flagBit f) := by
  revert k
  cases f <;> decide

/-- One bit of P, the others kept. -/
theorem getLsbD_setFlag (f : Flag) (b : Bool) (p : Byte) (k : Nat) (hk : k < 8) :
    (setFlag f b p).getLsbD k = if k = flagBit f then b else p.getLsbD k := by
  cases b
  · simp only [setFlag, Bool.false_eq_true, if_false, BitVec.getLsbD_and, BitVec.getLsbD_not, getLsbD_flagMask f k hk, hk]
    split <;> simp_all
  · simp only [setFlag, if_true, BitVec.getLsbD_or, getLsbD_flagMask f k hk]
    split <;> simp_all

theorem getLsbD_setZN (v p : Byte) (k : Nat) (hk : k < 8) :
    (setZN v p).getLsbD k = if k = 7 then v.getLsbD 7 else if k = 1 then v == 0 else p.getLsbD k := by
  rw [setZN, getLsbD_setFlag _ _ _ k hk, getLsbD_setFlag _ _ _ k hk]
  rfl

theorem getLsbD_addFlags (a m p : Byte) (k : Nat) (hk : k < 8) :
    (addFlags a m p).getLsbD k =
      if k = 7 then (addResult a m (getFlag .carry p)).getLsbD 7
      else if k = 1 then addResult a m (getFlag .carry p) == 0
      else if k = 6 then addOverflow a m (addResult a m (getFlag .carry p))
      else if k = 0 then addCarry a m (getFlag .carry p)
      else p.getLsbD k := by
  rw [addFlags, getLsbD_setZN _ _ k hk, getLsbD_setFlag _ _ _ k hk, getLsbD_setFlag _ _ _ k hk]
  rfl

theorem getLsbD_bitFlags (a m p : Byte) (k : Nat) (hk : k < 8) :
    (bitFlags a m p).getLsbD k =
      if k = 7 then m.getLsbD 7 else if k = 6 then m.getLsbD 6 else if k = 1 then (a &&& m) == 0 else p.getLsbD k := by
  rw [bitFlags, getLsbD_setFlag _ _ _ k hk, getLsbD_setFlag _ _ _ k hk, getLsbD_setFlag _ _ _ k hk]
  rfl

theorem getLsbD_compareFlags (reg m p : Byte) (k : Nat) (hk : k < 8) :
    (compareFlags reg m p).getLsbD k =
      if k = 7 then (reg - m).getLsbD 7
      else if k = 1 then reg == m
      else if k = 0 then decide (m.toNat ≤ reg.toNat)
      else p.getLsbD k := by
  rw [compareFlags, getLsbD_setFlag _ _ _ k hk, getLsbD_setFlag _ _ _ k hk, getLsbD_setFlag _ _ _ k hk]
  rfl

/-- Bits 4 and 5 set (R18). -/
theorem getLsbD_pushedByInstruction (p : Byte) (k : Nat) (hk : k < 8) :
    (pushedByInstruction p).getLsbD k = (p.getLsbD k || decide (k = 4 ∨ k = 5)) := by
  have h : ∀ k < 8, (0x30 : Byte).getLsbD k = decide (k = 4 ∨ k = 5) := by decide
  rw [pushedByInstruction, BitVec.getLsbD_or, h k hk]

/-- Bit 4 clear, bit 5 set (R18). -/
theorem getLsbD_pulledStatus (p : Byte) (k : Nat) (hk : k < 8) :
    (pulledStatus p).getLsbD k = (decide (k ≠ 4) && (p.getLsbD k || decide (k = 5))) := by
  have h : ∀ k < 8, (~~~(0x10 : Byte)).getLsbD k = decide (k ≠ 4) := by decide
  have h' : ∀ k < 8, (0x20 : Byte).getLsbD k = decide (k = 5) := by decide
  rw [pulledStatus, BitVec.getLsbD_or, BitVec.getLsbD_and, h k hk, h' k hk]
  by_cases h4 : k = 4
  · subst h4; simp
  · simp [h4]

theorem pushedByNmi_eq (p : Byte) : pushedByNmi p = pulledStatus p := rfl

/-- A flag write keeps bits 4 and 5 (R16). -/
theorem setFlag_bits45 (f : Flag) (b : Bool) (p : Byte) :
    (setFlag f b p).getLsbD 4 = p.getLsbD 4 ∧ (setFlag f b p).getLsbD 5 = p.getLsbD 5 := by
  rw [getLsbD_setFlag _ _ _ 4 (by decide), getLsbD_setFlag _ _ _ 5 (by decide)]
  cases f <;> simp [flagBit]

/-- `v == 0` of a byte, on numbers. -/
theorem byte_beq_zero (v : Byte) : (v == 0) = decide (v.toNat = 0) := by
  rw [Bool.eq_iff_iff]
  simp [BitVec.toNat_eq]

/-- Bit 7 of a byte, on numbers. -/
theorem byte_bit7 (v : Byte) : v.getLsbD 7 = decide (128 ≤ v.toNat) := by
  rw [BitVec.getLsbD, Nat.testBit_eq_decide_div_mod_eq]
  have := v.isLt
  rw [decide_eq_decide]
  omega

/-- Bit 0 of a byte, on numbers. -/
theorem byte_bit0 (v : Byte) : v.getLsbD 0 = decide (v.toNat % 2 = 1) := by
  rw [BitVec.getLsbD, Nat.testBit_eq_decide_div_mod_eq]
  simp

end Sys2Proof.Machine
end

