-- ==== Sys2Proof/Laws/Exec.lean ====
section
/-!
SUPPORT. What each operand class does (one lemma per outcome of its accesses), the stack, and the interrupt operations: the
lemmas about single instructions cite these and unfold no access.
-/

namespace Sys2Proof.Machine

/-! ### The operand classes -/

theorem runRead_done {len : Word} {base : Nat} {pageCross : Bool} {ea : Operand} {op : Byte → State → State} {s s1 : State}
    {m : Byte} (h : memRead ea.addr s = .done m s1) :
    runRead len base pageCross ea op s = .next (advance len (base - 1 + penalty pageCross ea) (op m s1)) := by
  rw [runRead, h]
  rfl

theorem runRead_stopped {len : Word} {base : Nat} {pageCross : Bool} {ea : Operand} {op : Byte → State → State} {s : State}
    (h : ¬Readable s ea.addr) :
    runRead len base pageCross ea op s = .next (s.stopWith (.ppuAddressOutOfRange s.ppu.v)) := by
  rw [runRead, memRead_stopped _ _ h]
  rfl

theorem runWrite_done {len : Word} {base : Nat} {ea : Operand} {v : Byte} {s s1 : State} {u : Unit}
    (h : memWrite ea.addr v s = .done u s1) : runWrite len base ea v s = .next (advance len (base - 1) s1) := by
  rw [runWrite, h]
  rfl

theorem runWrite_stopped {len : Word} {base : Nat} {ea : Operand} {v : Byte} {s : State} (h : ¬Writable s ea.addr) :
    runWrite len base ea v s = .next (s.stopWith (writeFault s ea.addr)) := by
  rw [runWrite, memWrite_stopped _ _ _ h]
  rfl

theorem runModify_done {len : Word} {base : Nat} {ea : Operand} {result : Byte → State → Byte} {before : Byte → Byte → Byte}
    {s s1 s2 : State} {m : Byte} {u : Unit} (h1 : memRead ea.addr s = .done m s1)
    (h2 : memWrite ea.addr (result m s1) (setStatus (before m s1.cpu.p) s1) = .done u s2) :
    runModify len base ea result before s = .next (advance len (base - 1) (setStatus (setZN (result m s1) s2.cpu.p) s2)) := by
  simp only [runModify, h1, Access.andThen, h2, settle]

theorem runModify_stopped_write {len : Word} {base : Nat} {ea : Operand} {result : Byte → State → Byte}
    {before : Byte → Byte → Byte} {s s1 : State} {m : Byte} (h1 : memRead ea.addr s = .done m s1)
    (h2 : ¬Writable s1 ea.addr) :
    runModify len base ea result before s =
      .next ((setStatus (before m s1.cpu.p) s1).stopWith (writeFault s1 ea.addr)) := by
  have h3 : ¬Writable (setStatus (before m s1.cpu.p) s1) ea.addr := h2
  simp only [runModify, h1, Access.andThen, memWrite_stopped _ _ _ h3, settle]
  rfl

theorem runModify_stopped_read {len : Word} {base : Nat} {ea : Operand} {result : Byte → State → Byte}
    {before : Byte → Byte → Byte} {s : State} (h : ¬Readable s ea.addr) :
    runModify len base ea result before s = .next (s.stopWith (.ppuAddressOutOfRange s.ppu.v)) := by
  simp only [runModify, memRead_stopped _ _ h, Access.andThen, settle]

/-- What a read-class form ends in, whatever the accesses do. -/
theorem runRead_cases (len : Word) (base : Nat) (pageCross : Bool) (ea : Operand) (op : Byte → State → State) (s : State) :
    (∃ m s1, memRead ea.addr s = .done m s1 ∧
      runRead len base pageCross ea op s = .next (advance len (base - 1 + penalty pageCross ea) (op m s1))) ∨
    (¬Readable s ea.addr ∧
      runRead len base pageCross ea op s = .next (s.stopWith (.ppuAddressOutOfRange s.ppu.v))) := by
  by_cases h : Readable s ea.addr
  · obtain ⟨m, s1, h1⟩ := memRead_done _ _ h
    exact .inl ⟨m, s1, h1, runRead_done h1⟩
  · exact .inr ⟨h, runRead_stopped h⟩

/-- What a write-class form ends in. -/
theorem runWrite_cases (len : Word) (base : Nat) (ea : Operand) (v : Byte) (s : State) :
    (∃ s1, memWrite ea.addr v s = .done () s1 ∧ runWrite len base ea v s = .next (advance len (base - 1) s1)) ∨
    (¬Writable s ea.addr ∧ runWrite len base ea v s = .next (s.stopWith (writeFault s ea.addr))) := by
  by_cases h : Writable s ea.addr
  · obtain ⟨s1, h1⟩ := memWrite_done ea.addr v s h
    exact .inl ⟨s1, h1, runWrite_done h1⟩
  · exact .inr ⟨h, runWrite_stopped h⟩

/-- What a read-modify-write form ends in. -/
theorem runModify_cases (len : Word) (base : Nat) (ea : Operand) (result : Byte → State → Byte)
    (before : Byte → Byte → Byte) (s : State) :
    (∃ m s1 s2, memRead ea.addr s = .done m s1 ∧
      memWrite ea.addr (result m s1) (setStatus (before m s1.cpu.p) s1) = .done () s2 ∧
      runModify len base ea result before s = .next (advance len (base - 1) (setStatus (setZN (result m s1) s2.cpu.p) s2))) ∨
    (∃ m s1, memRead ea.addr s = .done m s1 ∧ ¬Writable s1 ea.addr ∧
      runModify len base ea result before s =
        .next ((setStatus (before m s1.cpu.p) s1).stopWith (writeFault s1 ea.addr))) ∨
    (¬Readable s ea.addr ∧
      runModify len base ea result before s = .next (s.stopWith (.ppuAddressOutOfRange s.ppu.v))) := by
  by_cases h : Readable s ea.addr
  · obtain ⟨m, s1, h1⟩ := memRead_done _ _ h
    by_cases hw : Writable s1 ea.addr
    · have hw' : Writable (setStatus (before m s1.cpu.p) s1) ea.addr := hw
      obtain ⟨s2, h2⟩ := memWrite_done ea.addr (result m s1) _ hw'
      exact .inl ⟨m, s1, s2, h1, h2, runModify_done h1 h2⟩
    · exact .inr (.inl ⟨m, s1, h1, hw, runModify_stopped_write h1 hw⟩)
  · exact .inr (.inr ⟨h, runModify_stopped_read h⟩)

/-! ### The stack -/

/-- Page 1 is CPU RAM: a push is the bus write of `$0100 | SP` (R137). -/
theorem push_eq_memWrite (d : Byte) (s : State) :
    memWrite (BitVec.ofNat 16 (stackIndex s.cpu.sp)) d s =
      .done () (s.mapBus fun b => { b with ram := b.ram.write (stackIndex s.cpu.sp) d }) := by
  have := s.cpu.sp.isLt
  have h : (BitVec.ofNat 16 (stackIndex s.cpu.sp)).toNat = stackIndex s.cpu.sp := by
    rw [BitVec.toNat_ofNat, stackIndex]; omega
  rw [memWrite, regionOf, h, stackIndex, if_pos (by omega), show (0x100 + s.cpu.sp.toNat) % 0x800 = 0x100 + s.cpu.sp.toNat by omega]

/-- A pull is the bus read of `$0100 | SP` after the increment (R137). -/
theorem pull_eq_memRead (s : State) :
    memRead (BitVec.ofNat 16 (stackIndex (s.cpu.sp + 1))) s = .done (pulledByte s) s := by
  have := (s.cpu.sp + 1).isLt
  have h : (BitVec.ofNat 16 (stackIndex (s.cpu.sp + 1))).toNat = stackIndex (s.cpu.sp + 1) := by
    rw [BitVec.toNat_ofNat, stackIndex]; omega
  rw [memRead, regionOf, h, stackIndex, if_pos (by omega), pulledByte, stackIndex,
    show (0x100 + (s.cpu.sp + 1).toNat) % 0x800 = 0x100 + (s.cpu.sp + 1).toNat by omega]

/-- A zero-page pointer read is two bus reads of page 0 (R150, R151). -/
theorem zeroPage_eq_memRead (b : Byte) (s : State) :
    memRead (zeroPageAddress b) s = .done (s.bus.ram.read b.toNat) s := by
  have := b.isLt
  have h : (zeroPageAddress b).toNat = b.toNat := by
    rw [zeroPageAddress, BitVec.toNat_setWidth]; omega
  rw [memRead, regionOf, h, if_pos (by omega), show b.toNat % 0x800 = b.toNat by omega]

/-- A byte of a vector is the bus read of PRG ROM (R81). -/
theorem prgRomByte_eq_memRead (a : Word) (s : State) (h : 0x8000 ≤ a.toNat) :
    memRead a s = .done (prgRomByte s.cfg a) s := by
  rw [memRead, (regionOf_prgRom s.cfg a _).2 ⟨h, rfl⟩]
  rfl

/-- A vector is `read16` of its address (R81, R82). -/
theorem vectorAt_eq_read16 (a : Word) (s : State) (h : 0x8000 ≤ a.toNat) (h' : 0x8000 ≤ (a + 1).toNat) :
    read16 a s = .done (vectorAt s.cfg a) s := by
  simp only [read16, prgRomByte_eq_memRead a s h, Access.andThen, prgRomByte_eq_memRead (a + 1) s h', vectorAt]

/-- SP below the top: one push down. -/
theorem stackIndex_sub (sp : Byte) (n : Nat) (h : n < 256) :
    stackIndex (sp - BitVec.ofNat 8 n) = 256 + (sp.toNat + 256 - n) % 256 := by
  have := sp.isLt
  rw [stackIndex, BitVec.toNat_sub, BitVec.toNat_ofNat]
  omega

theorem stackIndex_add (sp : Byte) (n : Nat) :
    stackIndex (sp + BitVec.ofNat 8 n) = 256 + (sp.toNat + n) % 256 := by
  have := sp.isLt
  rw [stackIndex, BitVec.toNat_add, BitVec.toNat_ofNat]
  omega

theorem stackIndex_ne {a b : Byte} (h : a ≠ b) : stackIndex a ≠ stackIndex b := by
  intro he
  apply h
  rw [stackIndex, stackIndex] at he
  exact BitVec.eq_of_toNat_eq (by omega)

theorem wordOf_toNat (lo hi : Byte) : (wordOf lo hi).toNat = lo.toNat + 256 * hi.toNat := by
  have := lo.isLt
  rw [wordOf, BitVec.toNat_append, Nat.shiftLeft_eq, ← Nat.shiftLeft_eq, ← Nat.shiftLeft_add_eq_or_of_lt this, Nat.shiftLeft_eq]
  omega

theorem loByte_toNat (w : Word) : (loByte w).toNat = w.toNat % 256 := by
  rw [loByte, BitVec.toNat_setWidth]

theorem hiByte_toNat (w : Word) : (hiByte w).toNat = w.toNat / 256 := by
  have := w.isLt
  rw [hiByte, BitVec.toNat_setWidth, BitVec.toNat_ushiftRight, Nat.shiftRight_eq_div_pow]
  omega

@[simp] theorem wordOf_loByte_hiByte (w : Word) : wordOf (loByte w) (hiByte w) = w := by
  apply BitVec.eq_of_toNat_eq
  rw [wordOf_toNat, loByte_toNat, hiByte_toNat]
  omega

@[simp] theorem loByte_wordOf (lo hi : Byte) : loByte (wordOf lo hi) = lo := by
  have := lo.isLt
  apply BitVec.eq_of_toNat_eq
  rw [loByte_toNat, wordOf_toNat]
  omega

@[simp] theorem hiByte_wordOf (lo hi : Byte) : hiByte (wordOf lo hi) = hi := by
  have := lo.isLt
  have := hi.isLt
  apply BitVec.eq_of_toNat_eq
  rw [hiByte_toNat, wordOf_toNat]
  omega

/-- Taking an interrupt: the three cells it writes, and the rest of RAM. -/
theorem takeInterrupt_ram (ret : Word) (status : Byte) (vector : Word) (s : State) :
    (takeInterrupt ret status vector s).bus =
      { s.bus with
        ram := ((s.bus.ram.write (stackIndex s.cpu.sp) (hiByte ret)).write (stackIndex (s.cpu.sp - 1)) (loByte ret)).write
          (stackIndex (s.cpu.sp - 1 - 1)) status } := rfl

end Sys2Proof.Machine
end

