-- ==== Sys2Proof/Laws/PerInstr.lean ====
section
/-!
SUPPORT. Statements made per instruction about its syntax. `EncodedLength`: the opcode byte of an instruction's encoding
selects a row, and the bytes after it are as many as that row's mode calls for (R110, R111, R117).
-/

namespace Sys2Proof.Laws.EncodedLength

/-- How many operand bytes a row of the opcode table has (R111). -/
def operandBytes : Template → Nat
  | .alone _ => 0
  | .oneByte _ => 1
  | .twoBytes _ => 2

/-- The opcode byte selects a row, and that row has the operand bytes that follow. -/
def Statement (i : Instr) : Prop :=
  ∃ opcode operands row, encode i = opcode :: operands ∧ rowOf opcode = some row ∧ operandBytes row = operands.length

theorem ldaImm (m : Byte) : Statement (.ldaImm m) := ⟨_, _, _, rfl, rfl, rfl⟩
theorem ldaZp (zp : Byte) : Statement (.ldaZp zp) := ⟨_, _, _, rfl, rfl, rfl⟩
theorem ldaZpX (zp : Byte) : Statement (.ldaZpX zp) := ⟨_, _, _, rfl, rfl, rfl⟩
theorem ldaAbs (addr : Word) : Statement (.ldaAbs addr) := ⟨_, _, _, rfl, rfl, rfl⟩
theorem ldaAbsX (addr : Word) : Statement (.ldaAbsX addr) := ⟨_, _, _, rfl, rfl, rfl⟩
theorem ldaAbsY (addr : Word) : Statement (.ldaAbsY addr) := ⟨_, _, _, rfl, rfl, rfl⟩
theorem ldaIndX (zp : Byte) : Statement (.ldaIndX zp) := ⟨_, _, _, rfl, rfl, rfl⟩
theorem ldaIndY (zp : Byte) : Statement (.ldaIndY zp) := ⟨_, _, _, rfl, rfl, rfl⟩
theorem ldxImm (m : Byte) : Statement (.ldxImm m) := ⟨_, _, _, rfl, rfl, rfl⟩
theorem ldxZp (zp : Byte) : Statement (.ldxZp zp) := ⟨_, _, _, rfl, rfl, rfl⟩
theorem ldxZpY (zp : Byte) : Statement (.ldxZpY zp) := ⟨_, _, _, rfl, rfl, rfl⟩
theorem ldxAbs (addr : Word) : Statement (.ldxAbs addr) := ⟨_, _, _, rfl, rfl, rfl⟩
theorem ldxAbsY (addr : Word) : Statement (.ldxAbsY addr) := ⟨_, _, _, rfl, rfl, rfl⟩
theorem ldyImm (m : Byte) : Statement (.ldyImm m) := ⟨_, _, _, rfl, rfl, rfl⟩
theorem ldyZp (zp : Byte) : Statement (.ldyZp zp) := ⟨_, _, _, rfl, rfl, rfl⟩
theorem ldyZpX (zp : Byte) : Statement (.ldyZpX zp) := ⟨_, _, _, rfl, rfl, rfl⟩
theorem ldyAbs (addr : Word) : Statement (.ldyAbs addr) := ⟨_, _, _, rfl, rfl, rfl⟩
theorem ldyAbsX (addr : Word) : Statement (.ldyAbsX addr) := ⟨_, _, _, rfl, rfl, rfl⟩
theorem staZp (zp : Byte) : Statement (.staZp zp) := ⟨_, _, _, rfl, rfl, rfl⟩
theorem staZpX (zp : Byte) : Statement (.staZpX zp) := ⟨_, _, _, rfl, rfl, rfl⟩
theorem staAbs (addr : Word) : Statement (.staAbs addr) := ⟨_, _, _, rfl, rfl, rfl⟩
theorem staAbsX (addr : Word) : Statement (.staAbsX addr) := ⟨_, _, _, rfl, rfl, rfl⟩
theorem staAbsY (addr : Word) : Statement (.staAbsY addr) := ⟨_, _, _, rfl, rfl, rfl⟩
theorem staIndX (zp : Byte) : Statement (.staIndX zp) := ⟨_, _, _, rfl, rfl, rfl⟩
theorem staIndY (zp : Byte) : Statement (.staIndY zp) := ⟨_, _, _, rfl, rfl, rfl⟩
theorem stxZp (zp : Byte) : Statement (.stxZp zp) := ⟨_, _, _, rfl, rfl, rfl⟩
theorem stxZpY (zp : Byte) : Statement (.stxZpY zp) := ⟨_, _, _, rfl, rfl, rfl⟩
theorem stxAbs (addr : Word) : Statement (.stxAbs addr) := ⟨_, _, _, rfl, rfl, rfl⟩
theorem styZp (zp : Byte) : Statement (.styZp zp) := ⟨_, _, _, rfl, rfl, rfl⟩
theorem styZpX (zp : Byte) : Statement (.styZpX zp) := ⟨_, _, _, rfl, rfl, rfl⟩
theorem styAbs (addr : Word) : Statement (.styAbs addr) := ⟨_, _, _, rfl, rfl, rfl⟩
theorem tax : Statement .tax := ⟨_, _, _, rfl, rfl, rfl⟩
theorem tay : Statement .tay := ⟨_, _, _, rfl, rfl, rfl⟩
theorem tsx : Statement .tsx := ⟨_, _, _, rfl, rfl, rfl⟩
theorem txa : Statement .txa := ⟨_, _, _, rfl, rfl, rfl⟩
theorem txs : Statement .txs := ⟨_, _, _, rfl, rfl, rfl⟩
theorem tya : Statement .tya := ⟨_, _, _, rfl, rfl, rfl⟩
theorem pha : Statement .pha := ⟨_, _, _, rfl, rfl, rfl⟩
theorem php : Statement .php := ⟨_, _, _, rfl, rfl, rfl⟩
theorem pla : Statement .pla := ⟨_, _, _, rfl, rfl, rfl⟩
theorem plp : Statement .plp := ⟨_, _, _, rfl, rfl, rfl⟩
theorem adcImm (m : Byte) : Statement (.adcImm m) := ⟨_, _, _, rfl, rfl, rfl⟩
theorem adcZp (zp : Byte) : Statement (.adcZp zp) := ⟨_, _, _, rfl, rfl, rfl⟩
theorem adcZpX (zp : Byte) : Statement (.adcZpX zp) := ⟨_, _, _, rfl, rfl, rfl⟩
theorem adcAbs (addr : Word) : Statement (.adcAbs addr) := ⟨_, _, _, rfl, rfl, rfl⟩
theorem adcAbsX (addr : Word) : Statement (.adcAbsX addr) := ⟨_, _, _, rfl, rfl, rfl⟩
theorem adcAbsY (addr : Word) : Statement (.adcAbsY addr) := ⟨_, _, _, rfl, rfl, rfl⟩
theorem adcIndX (zp : Byte) : Statement (.adcIndX zp) := ⟨_, _, _, rfl, rfl, rfl⟩
theorem adcIndY (zp : Byte) : Statement (.adcIndY zp) := ⟨_, _, _, rfl, rfl, rfl⟩
theorem sbcImm (m : Byte) : Statement (.sbcImm m) := ⟨_, _, _, rfl, rfl, rfl⟩
theorem sbcZp (zp : Byte) : Statement (.sbcZp zp) := ⟨_, _, _, rfl, rfl, rfl⟩
theorem sbcZpX (zp : Byte) : Statement (.sbcZpX zp) := ⟨_, _, _, rfl, rfl, rfl⟩
theorem sbcAbs (addr : Word) : Statement (.sbcAbs addr) := ⟨_, _, _, rfl, rfl, rfl⟩
theorem sbcAbsX (addr : Word) : Statement (.sbcAbsX addr) := ⟨_, _, _, rfl, rfl, rfl⟩
theorem sbcAbsY (addr : Word) : Statement (.sbcAbsY addr) := ⟨_, _, _, rfl, rfl, rfl⟩
theorem sbcIndX (zp : Byte) : Statement (.sbcIndX zp) := ⟨_, _, _, rfl, rfl, rfl⟩
theorem sbcIndY (zp : Byte) : Statement (.sbcIndY zp) := ⟨_, _, _, rfl, rfl, rfl⟩
theorem andImm (m : Byte) : Statement (.andImm m) := ⟨_, _, _, rfl, rfl, rfl⟩
theorem andZp (zp : Byte) : Statement (.andZp zp) := ⟨_, _, _, rfl, rfl, rfl⟩
theorem andZpX (zp : Byte) : Statement (.andZpX zp) := ⟨_, _, _, rfl, rfl, rfl⟩
theorem andAbs (addr : Word) : Statement (.andAbs addr) := ⟨_, _, _, rfl, rfl, rfl⟩
theorem andAbsX (addr : Word) : Statement (.andAbsX addr) := ⟨_, _, _, rfl, rfl, rfl⟩
theorem andAbsY (addr : Word) : Statement (.andAbsY addr) := ⟨_, _, _, rfl, rfl, rfl⟩
theorem andIndX (zp : Byte) : Statement (.andIndX zp) := ⟨_, _, _, rfl, rfl, rfl⟩
theorem andIndY (zp : Byte) : Statement (.andIndY zp) := ⟨_, _, _, rfl, rfl, rfl⟩
theorem oraImm (m : Byte) : Statement (.oraImm m) := ⟨_, _, _, rfl, rfl, rfl⟩
theorem oraZp (zp : Byte) : Statement (.oraZp zp) := ⟨_, _, _, rfl, rfl, rfl⟩
theorem oraZpX (zp : Byte) : Statement (.oraZpX zp) := ⟨_, _, _, rfl, rfl, rfl⟩
theorem oraAbs (addr : Word) : Statement (.oraAbs addr) := ⟨_, _, _, rfl, rfl, rfl⟩
theorem oraAbsX (addr : Word) : Statement (.oraAbsX addr) := ⟨_, _, _, rfl, rfl, rfl⟩
theorem oraAbsY (addr : Word) : Statement (.oraAbsY addr) := ⟨_, _, _, rfl, rfl, rfl⟩
theorem oraIndX (zp : Byte) : Statement (.oraIndX zp) := ⟨_, _, _, rfl, rfl, rfl⟩
theorem oraIndY (zp : Byte) : Statement (.oraIndY zp) := ⟨_, _, _, rfl, rfl, rfl⟩
theorem eorImm (m : Byte) : Statement (.eorImm m) := ⟨_, _, _, rfl, rfl, rfl⟩
theorem eorZp (zp : Byte) : Statement (.eorZp zp) := ⟨_, _, _, rfl, rfl, rfl⟩
theorem eorZpX (zp : Byte) : Statement (.eorZpX zp) := ⟨_, _, _, rfl, rfl, rfl⟩
theorem eorAbs (addr : Word) : Statement (.eorAbs addr) := ⟨_, _, _, rfl, rfl, rfl⟩
theorem eorAbsX (addr : Word) : Statement (.eorAbsX addr) := ⟨_, _, _, rfl, rfl, rfl⟩
theorem eorAbsY (addr : Word) : Statement (.eorAbsY addr) := ⟨_, _, _, rfl, rfl, rfl⟩
theorem eorIndX (zp : Byte) : Statement (.eorIndX zp) := ⟨_, _, _, rfl, rfl, rfl⟩
theorem eorIndY (zp : Byte) : Statement (.eorIndY zp) := ⟨_, _, _, rfl, rfl, rfl⟩
theorem bitZp (zp : Byte) : Statement (.bitZp zp) := ⟨_, _, _, rfl, rfl, rfl⟩
theorem bitAbs (addr : Word) : Statement (.bitAbs addr) := ⟨_, _, _, rfl, rfl, rfl⟩
theorem incZp (zp : Byte) : Statement (.incZp zp) := ⟨_, _, _, rfl, rfl, rfl⟩
theorem incZpX (zp : Byte) : Statement (.incZpX zp) := ⟨_, _, _, rfl, rfl, rfl⟩
theorem incAbs (addr : Word) : Statement (.incAbs addr) := ⟨_, _, _, rfl, rfl, rfl⟩
theorem incAbsX (addr : Word) : Statement (.incAbsX addr) := ⟨_, _, _, rfl, rfl, rfl⟩
theorem decZp (zp : Byte) : Statement (.decZp zp) := ⟨_, _, _, rfl, rfl, rfl⟩
theorem decZpX (zp : Byte) : Statement (.decZpX zp) := ⟨_, _, _, rfl, rfl, rfl⟩
theorem decAbs (addr : Word) : Statement (.decAbs addr) := ⟨_, _, _, rfl, rfl, rfl⟩
theorem decAbsX (addr : Word) : Statement (.decAbsX addr) := ⟨_, _, _, rfl, rfl, rfl⟩
theorem inx : Statement .inx := ⟨_, _, _, rfl, rfl, rfl⟩
theorem iny : Statement .iny := ⟨_, _, _, rfl, rfl, rfl⟩
theorem dex : Statement .dex := ⟨_, _, _, rfl, rfl, rfl⟩
theorem dey : Statement .dey := ⟨_, _, _, rfl, rfl, rfl⟩
theorem aslAcc : Statement .aslAcc := ⟨_, _, _, rfl, rfl, rfl⟩
theorem aslZp (zp : Byte) : Statement (.aslZp zp) := ⟨_, _, _, rfl, rfl, rfl⟩
theorem aslZpX (zp : Byte) : Statement (.aslZpX zp) := ⟨_, _, _, rfl, rfl, rfl⟩
theorem aslAbs (addr : Word) : Statement (.aslAbs addr) := ⟨_, _, _, rfl, rfl, rfl⟩
theorem aslAbsX (addr : Word) : Statement (.aslAbsX addr) := ⟨_, _, _, rfl, rfl, rfl⟩
theorem lsrAcc : Statement .lsrAcc := ⟨_, _, _, rfl, rfl, rfl⟩
theorem lsrZp (zp : Byte) : Statement (.lsrZp zp) := ⟨_, _, _, rfl, rfl, rfl⟩
theorem lsrZpX (zp : Byte) : Statement (.lsrZpX zp) := ⟨_, _, _, rfl, rfl, rfl⟩
theorem lsrAbs (addr : Word) : Statement (.lsrAbs addr) := ⟨_, _, _, rfl, rfl, rfl⟩
theorem lsrAbsX (addr : Word) : Statement (.lsrAbsX addr) := ⟨_, _, _, rfl, rfl, rfl⟩
theorem rolAcc : Statement .rolAcc := ⟨_, _, _, rfl, rfl, rfl⟩
theorem rolZp (zp : Byte) : Statement (.rolZp zp) := ⟨_, _, _, rfl, rfl, rfl⟩
theorem rolZpX (zp : Byte) : Statement (.rolZpX zp) := ⟨_, _, _, rfl, rfl, rfl⟩
theorem rolAbs (addr : Word) : Statement (.rolAbs addr) := ⟨_, _, _, rfl, rfl, rfl⟩
theorem rolAbsX (addr : Word) : Statement (.rolAbsX addr) := ⟨_, _, _, rfl, rfl, rfl⟩
theorem rorAcc : Statement .rorAcc := ⟨_, _, _, rfl, rfl, rfl⟩
theorem rorZp (zp : Byte) : Statement (.rorZp zp) := ⟨_, _, _, rfl, rfl, rfl⟩
theorem rorZpX (zp : Byte) : Statement (.rorZpX zp) := ⟨_, _, _, rfl, rfl, rfl⟩
theorem rorAbs (addr : Word) : Statement (.rorAbs addr) := ⟨_, _, _, rfl, rfl, rfl⟩
theorem rorAbsX (addr : Word) : Statement (.rorAbsX addr) := ⟨_, _, _, rfl, rfl, rfl⟩
theorem cmpImm (m : Byte) : Statement (.cmpImm m) := ⟨_, _, _, rfl, rfl, rfl⟩
theorem cmpZp (zp : Byte) : Statement (.cmpZp zp) := ⟨_, _, _, rfl, rfl, rfl⟩
theorem cmpZpX (zp : Byte) : Statement (.cmpZpX zp) := ⟨_, _, _, rfl, rfl, rfl⟩
theorem cmpAbs (addr : Word) : Statement (.cmpAbs addr) := ⟨_, _, _, rfl, rfl, rfl⟩
theorem cmpAbsX (addr : Word) : Statement (.cmpAbsX addr) := ⟨_, _, _, rfl, rfl, rfl⟩
theorem cmpAbsY (addr : Word) : Statement (.cmpAbsY addr) := ⟨_, _, _, rfl, rfl, rfl⟩
theorem cmpIndX (zp : Byte) : Statement (.cmpIndX zp) := ⟨_, _, _, rfl, rfl, rfl⟩
theorem cmpIndY (zp : Byte) : Statement (.cmpIndY zp) := ⟨_, _, _, rfl, rfl, rfl⟩
theorem cpxImm (m : Byte) : Statement (.cpxImm m) := ⟨_, _, _, rfl, rfl, rfl⟩
theorem cpxZp (zp : Byte) : Statement (.cpxZp zp) := ⟨_, _, _, rfl, rfl, rfl⟩
theorem cpxAbs (addr : Word) : Statement (.cpxAbs addr) := ⟨_, _, _, rfl, rfl, rfl⟩
theorem cpyImm (m : Byte) : Statement (.cpyImm m) := ⟨_, _, _, rfl, rfl, rfl⟩
theorem cpyZp (zp : Byte) : Statement (.cpyZp zp) := ⟨_, _, _, rfl, rfl, rfl⟩
theorem cpyAbs (addr : Word) : Statement (.cpyAbs addr) := ⟨_, _, _, rfl, rfl, rfl⟩
theorem bcc (disp : Int) : Statement (.bcc disp) := ⟨_, _, _, rfl, rfl, rfl⟩
theorem bcs (disp : Int) : Statement (.bcs disp) := ⟨_, _, _, rfl, rfl, rfl⟩
theorem beq (disp : Int) : Statement (.beq disp) := ⟨_, _, _, rfl, rfl, rfl⟩
theorem bmi (disp : Int) : Statement (.bmi disp) := ⟨_, _, _, rfl, rfl, rfl⟩
theorem bne (disp : Int) : Statement (.bne disp) := ⟨_, _, _, rfl, rfl, rfl⟩
theorem bpl (disp : Int) : Statement (.bpl disp) := ⟨_, _, _, rfl, rfl, rfl⟩
theorem bvc (disp : Int) : Statement (.bvc disp) := ⟨_, _, _, rfl, rfl, rfl⟩
theorem bvs (disp : Int) : Statement (.bvs disp) := ⟨_, _, _, rfl, rfl, rfl⟩
theorem jmpAbs (addr : Word) : Statement (.jmpAbs addr) := ⟨_, _, _, rfl, rfl, rfl⟩
theorem jmpInd (ptr : Word) : Statement (.jmpInd ptr) := ⟨_, _, _, rfl, rfl, rfl⟩
theorem jsr (addr : Word) : Statement (.jsr addr) := ⟨_, _, _, rfl, rfl, rfl⟩
theorem rts : Statement .rts := ⟨_, _, _, rfl, rfl, rfl⟩
theorem clc : Statement .clc := ⟨_, _, _, rfl, rfl, rfl⟩
theorem cld : Statement .cld := ⟨_, _, _, rfl, rfl, rfl⟩
theorem cli : Statement .cli := ⟨_, _, _, rfl, rfl, rfl⟩
theorem clv : Statement .clv := ⟨_, _, _, rfl, rfl, rfl⟩
theorem sec : Statement .sec := ⟨_, _, _, rfl, rfl, rfl⟩
theorem sed : Statement .sed := ⟨_, _, _, rfl, rfl, rfl⟩
theorem sei : Statement .sei := ⟨_, _, _, rfl, rfl, rfl⟩
theorem nop : Statement .nop := ⟨_, _, _, rfl, rfl, rfl⟩
theorem brk : Statement .brk := ⟨_, _, _, rfl, rfl, rfl⟩
theorem rti : Statement .rti := ⟨_, _, _, rfl, rfl, rfl⟩

end Sys2Proof.Laws.EncodedLength
end

