-- ==== Sys2Proof/Laws/Ppu.lean ====
section
/-!
SUPPORT. What the PPU's dot can do: the parts of the PPU it leaves alone, what each part of its work
changes, and that it keeps the memories in form. The lemmas about rendering cite these and do not unfold the dot.
-/

namespace Sys2Proof.Machine

/-- What the work of a dot leaves alone: the CPU-side registers, the nametables, the palette, OAM, the raster. -/
structure DotFrame (p q : Ppu) : Prop where
  eq : q = { p with
    status := q.status
    secOam := q.secOam
    secCount := q.secCount
    secIndex := q.secIndex
    slots := q.slots
    slotCount := q.slotCount
    bgA := q.bgA
    bgB := q.bgB
    frameBuffer := q.frameBuffer
    v := q.v
    patternDraws := q.patternDraws }

theorem DotFrame.refl (p : Ppu) : DotFrame p p := ⟨rfl⟩

theorem DotFrame.trans {p q r : Ppu} (h : DotFrame p q) (h' : DotFrame q r) : DotFrame p r := by
  constructor
  rw [h'.eq, h.eq]

/-! ### Output -/

/-- A pixel changes one cell of the frame buffer and may set the sprite-0 flag. -/
theorem outputPixel_frame (cfg : Config) (p : Ppu) (line x : Nat) :
    ∃ c hit, outputPixel cfg p line x =
      { p with
        frameBuffer := p.frameBuffer.write (256 * line + x) c
        status := { p.status with sprite0Hit := p.status.sprite0Hit || hit } } := by
  rw [outputPixel]
  split
  · exact ⟨_, _, rfl⟩
  · refine ⟨outputColor cfg p 0x3F00, false, ?_⟩
    rw [Bool.or_false]

/-! ### Sprite evaluation and fetch -/

/-- Copying sprites into secondary OAM changes that memory and the remembered indices. -/
theorem foldl_copySprite_frame (places : List (Nat × Nat)) (p : Ppu) :
    places.foldl copySprite p =
      { p with secOam := (places.foldl copySprite p).secOam, secIndex := (places.foldl copySprite p).secIndex } := by
  induction places generalizing p with
  | nil => rfl
  | cons place rest ih =>
    rw [List.foldl_cons, ih]
    rfl

/-- Evaluation changes secondary OAM, its count and indices, and may set the overflow flag. -/
theorem evaluateSprites_frame (p : Ppu) (line : Nat) :
    evaluateSprites p line =
      { p with
        secOam := (evaluateSprites p line).secOam
        secCount := (evaluateSprites p line).secCount
        secIndex := (evaluateSprites p line).secIndex
        status := { p.status with spriteOverflow := (evaluateSprites p line).status.spriteOverflow } } := by
  simp only [evaluateSprites]
  rw [foldl_copySprite_frame]

theorem evaluateSprites_secCount (p : Ppu) (line : Nat) : (evaluateSprites p line).secCount ≤ 8 := by
  simp only [evaluateSprites, List.length_take]
  exact Nat.min_le_left _ _

/-- Secondary OAM stays in form while sprites are copied into its eight places. -/
theorem foldl_copySprite_ok (places : List (Nat × Nat)) (p : Ppu) (hp : MemoryOk p.secOam 32)
    (hn : ∀ place ∈ places, place.2 < 8) : MemoryOk (places.foldl copySprite p).secOam 32 := by
  induction places generalizing p with
  | nil => exact hp
  | cons place rest ih =>
    rw [List.foldl_cons]
    refine ih _ ?_ fun q hq => hn q (List.mem_cons_of_mem _ hq)
    have : place.2 < 8 := hn place List.mem_cons_self
    refine ⟨?_, ?_⟩
    · exact Memory.wf_write _ _ _ (Memory.wf_write _ _ _ (Memory.wf_write _ _ _ (Memory.wf_write _ _ _ hp.1)))
    · refine Memory.fits_write _ _ _ _ ?_ (Memory.fits_write _ _ _ _ ?_ (Memory.fits_write _ _ _ _ ?_
        (Memory.fits_write _ _ _ _ ?_ hp.2))) <;> omega

theorem evaluateSprites_secOam_ok (p : Ppu) (line : Nat) (hp : MemoryOk p.secOam 32) :
    MemoryOk (evaluateSprites p line).secOam 32 := by
  refine foldl_copySprite_ok _ p hp fun place hplace => ?_
  have h := List.mem_zipIdx hplace
  have := List.length_take_le 8 (spritesInRange p line)
  omega

/-- Loading a slot changes the slots and the model's draw count. -/
theorem loadSlot_frame (cfg : Config) (line : Nat) (p : Ppu) (k : Nat) :
    loadSlot cfg line p k =
      { p with slots := (loadSlot cfg line p k).slots, patternDraws := (loadSlot cfg line p k).patternDraws } := by
  simp only [loadSlot, patternFetch]
  split_ifs <;> rfl

theorem foldl_loadSlot_frame (cfg : Config) (line : Nat) (places : List Nat) (p : Ppu) :
    places.foldl (loadSlot cfg line) p =
      { p with
        slots := (places.foldl (loadSlot cfg line) p).slots
        patternDraws := (places.foldl (loadSlot cfg line) p).patternDraws } := by
  induction places generalizing p with
  | nil => rfl
  | cons place rest ih =>
    rw [List.foldl_cons, ih, loadSlot_frame]

/-- The slot load changes the slots, their count and the model's draw count. -/
theorem loadSpriteSlots_frame (cfg : Config) (p : Ppu) (line : Nat) :
    loadSpriteSlots cfg p line =
      { p with
        slots := (loadSpriteSlots cfg p line).slots
        slotCount := p.secCount
        patternDraws := (loadSpriteSlots cfg p line).patternDraws } := by
  simp only [loadSpriteSlots]
  rw [foldl_loadSlot_frame]

/-- Clearing secondary OAM leaves it in form: every cell holds `$FF`. -/
theorem clearSecondaryOam_ok (p : Ppu) : MemoryOk (clearSecondaryOam p).secOam 32 := by
  constructor <;> rfl

/-! ### The whole dot -/

/-- What step 4 of a dot leaves alone beyond `DotFrame`: the frame buffer, VBlank and the sprite-0 flag. -/
structure StageFrame (p q : Ppu) : Prop where
  frame : DotFrame p q
  frameBuffer : q.frameBuffer = p.frameBuffer
  status : q.status = { p.status with spriteOverflow := q.status.spriteOverflow }

theorem StageFrame.trans {p q r : Ppu} (h : StageFrame p q) (h' : StageFrame q r) : StageFrame p r where
  frame := h.frame.trans h'.frame
  frameBuffer := h'.frameBuffer.trans h.frameBuffer
  status := by rw [h'.status, h.status]

theorem StageFrame.refl (p : Ppu) : StageFrame p p := ⟨⟨rfl⟩, rfl, rfl⟩

theorem clearWork_frame (s d : Nat) (p : Ppu) : StageFrame p (clearWork s d p) := by
  rw [clearWork]
  split <;> exact ⟨⟨rfl⟩, rfl, rfl⟩

theorem tileWork_frame (cfg : Config) (d : Nat) (p : Ppu) : StageFrame p (tileWork cfg d p) := by
  rw [tileWork]
  split <;> exact ⟨⟨rfl⟩, rfl, rfl⟩

theorem lineWork_frame (s d : Nat) (p : Ppu) : StageFrame p (lineWork s d p) := by
  rw [lineWork]
  split
  · split
    · refine StageFrame.trans (q := { p with v := yIncrement p.v }) ⟨⟨rfl⟩, rfl, rfl⟩ ?_
      rw [evaluateSprites_frame]
      exact ⟨⟨rfl⟩, rfl, rfl⟩
    · exact ⟨⟨rfl⟩, rfl, rfl⟩
  · exact StageFrame.refl p

theorem horizontalWork_frame (d : Nat) (p : Ppu) : StageFrame p (horizontalWork d p) := by
  rw [horizontalWork]
  split <;> exact ⟨⟨rfl⟩, rfl, rfl⟩

theorem verticalWork_frame (s d : Nat) (p : Ppu) : StageFrame p (verticalWork s d p) := by
  rw [verticalWork]
  split <;> exact ⟨⟨rfl⟩, rfl, rfl⟩

theorem spriteWork_frame (cfg : Config) (s d : Nat) (p : Ppu) : StageFrame p (spriteWork cfg s d p) := by
  rw [spriteWork]
  split
  · split
    · rw [loadSpriteSlots_frame]
      exact ⟨⟨rfl⟩, rfl, rfl⟩
    · exact ⟨⟨rfl⟩, rfl, rfl⟩
  · exact StageFrame.refl p

theorem renderWork_frame (cfg : Config) (p : Ppu) (s d : Nat) : StageFrame p (renderWork cfg p s d) :=
  (clearWork_frame s d p).trans <| (tileWork_frame cfg d _).trans <| (lineWork_frame s d _).trans <|
    (horizontalWork_frame d _).trans <| (verticalWork_frame s d _).trans <| spriteWork_frame cfg s d _

theorem pixelWork_frame (cfg : Config) (s d : Nat) (p : Ppu) : DotFrame p (pixelWork cfg s d p) := by
  rw [pixelWork]
  split
  · obtain ⟨c, hit, h⟩ := outputPixel_frame cfg p s (d - 1)
    rw [h]
    exact ⟨rfl⟩
  · exact DotFrame.refl p

theorem statusWork_frame (s d : Nat) (p : Ppu) : statusWork s d p = { p with status := (statusWork s d p).status } := by
  rw [statusWork]
  split_ifs <;> rfl

theorem dotWork_frame (cfg : Config) (p : Ppu) (s d : Nat) : DotFrame p (dotWork cfg p s d) := by
  have h : DotFrame p (statusWork s d (pixelWork cfg s d p)) := by
    refine (pixelWork_frame cfg s d p).trans ?_
    rw [statusWork_frame]
    exact ⟨rfl⟩
  simp only [dotWork]
  split
  · exact h.trans (renderWork_frame cfg _ s d).frame
  · exact h

/-! ### What step 4 does, part by part -/

/-- What copying sprites does to secondary OAM and the indices depends on OAM and on those two alone. -/
theorem foldl_copySprite_congr (places : List (Nat × Nat)) {p q : Ppu} (h : q.oam = p.oam) (h1 : q.secOam = p.secOam)
    (h2 : q.secIndex = p.secIndex) :
    (places.foldl copySprite q).secOam = (places.foldl copySprite p).secOam ∧
      (places.foldl copySprite q).secIndex = (places.foldl copySprite p).secIndex := by
  induction places generalizing p q with
  | nil => exact ⟨h1, h2⟩
  | cons place rest ih =>
    refine ih (p := copySprite p place) (q := copySprite q place) h ?_ ?_ <;> simp only [copySprite, h, h1, h2]

/-- What evaluation finds depends on OAM, the sprite size and secondary OAM alone. -/
theorem evaluateSprites_congr (line : Nat) {p q : Ppu} (h : q.oam = p.oam) (hc : q.ctrl = p.ctrl)
    (h1 : q.secOam = p.secOam) (h2 : q.secIndex = p.secIndex) (h3 : q.status.spriteOverflow = p.status.spriteOverflow) :
    (evaluateSprites q line).secOam = (evaluateSprites p line).secOam ∧
      (evaluateSprites q line).secCount = (evaluateSprites p line).secCount ∧
      (evaluateSprites q line).secIndex = (evaluateSprites p line).secIndex ∧
      (evaluateSprites q line).status.spriteOverflow = (evaluateSprites p line).status.spriteOverflow := by
  have hf : spritesInRange q line = spritesInRange p line := by
    have hi : inRange q line = inRange p line := by
      funext i
      rw [inRange, inRange, spriteHeight, spriteHeight, h, hc]
    rw [spritesInRange, spritesInRange, hi]
  obtain ⟨e1, e2⟩ := foldl_copySprite_congr (((spritesInRange p line).take 8).zipIdx) h h1 h2
  simp only [evaluateSprites, hf, h3, e1, e2, and_self]

/-- Step 4 fills the tile latches at the fetch dots, as `fetchTile` does, and at no other. -/
theorem renderWork_tiles (cfg : Config) (p : Ppu) (s d : Nat) :
    (renderWork cfg p s d).bgA = (if isFetchDot d then fetchTile cfg p else p).bgA ∧
      (renderWork cfg p s d).bgB = (if isFetchDot d then fetchTile cfg p else p).bgB := by
  have h1 : ∀ q, (spriteWork cfg s d q).bgA = q.bgA ∧ (spriteWork cfg s d q).bgB = q.bgB := by
    intro q
    rw [spriteWork]
    split_ifs
    · rw [loadSpriteSlots_frame]; exact ⟨rfl, rfl⟩
    · exact ⟨rfl, rfl⟩
    · exact ⟨rfl, rfl⟩
  have h2 : ∀ q, (lineWork s d q).bgA = q.bgA ∧ (lineWork s d q).bgB = q.bgB := by
    intro q
    rw [lineWork]
    split_ifs
    · rw [evaluateSprites_frame]; exact ⟨rfl, rfl⟩
    · exact ⟨rfl, rfl⟩
    · exact ⟨rfl, rfl⟩
  have h3 : ∀ q, (verticalWork s d (horizontalWork d q)).bgA = q.bgA ∧ (verticalWork s d (horizontalWork d q)).bgB = q.bgB := by
    intro q
    rw [verticalWork, horizontalWork]
    split_ifs <;> exact ⟨rfl, rfl⟩
  rw [renderWork, (h1 _).1, (h1 _).2, (h3 _).1, (h3 _).2, (h2 _).1, (h2 _).2, tileWork, clearWork]
  split_ifs <;> exact ⟨rfl, rfl⟩

/-- Step 4 changes secondary OAM, its count and indices at dots 64 and 256 of a visible line, and at no other dot. -/
theorem renderWork_secondary (cfg : Config) (p : Ppu) (s d : Nat) :
    let q := renderWork cfg p s d
    let r := if s ≤ 239 ∧ d = 64 then clearSecondaryOam p else if s ≤ 239 ∧ d = 256 then evaluateSprites p s else p
    q.secOam = r.secOam ∧ q.secCount = r.secCount ∧ q.secIndex = r.secIndex ∧
      q.status.spriteOverflow = r.status.spriteOverflow := by
  have h1 : ∀ q, StageFrame q (spriteWork cfg s d (verticalWork s d (horizontalWork d q))) ∧
      (spriteWork cfg s d (verticalWork s d (horizontalWork d q))).secOam = q.secOam ∧
      (spriteWork cfg s d (verticalWork s d (horizontalWork d q))).secCount = q.secCount ∧
      (spriteWork cfg s d (verticalWork s d (horizontalWork d q))).secIndex = q.secIndex ∧
      (spriteWork cfg s d (verticalWork s d (horizontalWork d q))).status = q.status := by
    intro q
    refine ⟨(horizontalWork_frame d q).trans ((verticalWork_frame s d _).trans (spriteWork_frame cfg s d _)), ?_⟩
    rw [spriteWork, verticalWork, horizontalWork]
    split_ifs <;> (try rw [loadSpriteSlots_frame]) <;> exact ⟨rfl, rfl, rfl, rfl⟩
  obtain ⟨-, e1, e2, e3, e4⟩ := h1 (lineWork s d (tileWork cfg d (clearWork s d p)))
  simp only [renderWork, e1, e2, e3, e4]
  by_cases hd : d = 256
  · subst hd
    have hc : clearWork s 256 p = p := by rw [clearWork, if_neg (by simp)]
    simp only [hc, lineWork, isVisible, beq_self_eq_true, if_true, decide_eq_true_eq]
    by_cases hs : s ≤ 239
    · simp only [hs, if_true]
      exact evaluateSprites_congr s rfl rfl rfl rfl rfl
    · simp only [hs, if_false]
      exact ⟨rfl, rfl, rfl, rfl⟩
  · have hl : ∀ q, lineWork s d q = q := fun q => by rw [lineWork, if_neg (by simpa using hd)]
    have hr : clearWork s d p = if s ≤ 239 ∧ d = 64 then clearSecondaryOam p else p := by
      rw [clearWork]
      congr 1
      simp [isVisible]
    simp only [hl, hd, and_false, if_false, ← hr]
    rw [tileWork]
    split <;> exact ⟨rfl, rfl, rfl, rfl⟩

/-- Step 4 changes the sprite slots at dot 320, and at no other. -/
theorem renderWork_slots (cfg : Config) (p : Ppu) (s d : Nat) :
    let q := renderWork cfg p s d
    let r := if d = 320 then if s ≤ 239 then loadSpriteSlots cfg p s else { p with slotCount := 0 } else p
    q.slots = r.slots ∧ q.slotCount = r.slotCount := by
  by_cases hd : d = 320
  · subst hd
    have h : renderWork cfg p s 320 = spriteWork cfg s 320 p := by
      simp [renderWork, verticalWork, horizontalWork, lineWork, tileWork, clearWork, isFetchDot]
    rw [h, spriteWork]
    simp only [isVisible, beq_self_eq_true, if_true, decide_eq_true_eq, and_self]
  · have h1 : ∀ q, spriteWork cfg s d q = q := fun q => by rw [spriteWork, if_neg (by simpa using hd)]
    have h2 : ∀ q, (lineWork s d q).slots = q.slots ∧ (lineWork s d q).slotCount = q.slotCount := by
      intro q
      rw [lineWork]
      split_ifs <;> (try rw [evaluateSprites_frame]) <;> exact ⟨rfl, rfl⟩
    have h3 : ∀ q, (verticalWork s d (horizontalWork d q)).slots = q.slots ∧
        (verticalWork s d (horizontalWork d q)).slotCount = q.slotCount := by
      intro q
      rw [verticalWork, horizontalWork]
      split_ifs <;> exact ⟨rfl, rfl⟩
    simp only [renderWork, h1, (h3 _).1, (h3 _).2, (h2 _).1, (h2 _).2, hd, if_false]
    rw [tileWork, clearWork]
    split_ifs <;> exact ⟨rfl, rfl⟩

/-- Whether rendering is enabled does not change within a dot: it is the mask's and the configuration's. -/
theorem dotWork_eq (cfg : Config) (p : Ppu) (s d : Nat) :
    dotWork cfg p s d =
      if (isVisible s || s == 261) && renderEnabled cfg p then
        renderWork cfg (statusWork s d (pixelWork cfg s d p)) s d
      else statusWork s d (pixelWork cfg s d p) := by
  have h : renderEnabled cfg (statusWork s d (pixelWork cfg s d p)) = renderEnabled cfg p := by
    rw [renderEnabled, renderEnabled, statusWork_frame, (pixelWork_frame cfg s d p).eq]
  simp only [dotWork, h]

/-! ### The memories stay in form -/

theorem renderWork_ok (cfg : Config) (p : Ppu) (s d : Nat) (h : MemoryOk p.secOam 32) (hs : SpritesOk p) :
    MemoryOk (renderWork cfg p s d).secOam 32 ∧ SpritesOk (renderWork cfg p s d) := by
  have h1 : MemoryOk (clearWork s d p).secOam 32 ∧ SpritesOk (clearWork s d p) := by
    rw [clearWork]
    split
    · exact ⟨clearSecondaryOam_ok p, Nat.zero_le 8, hs.2⟩
    · exact ⟨h, hs⟩
  revert h1
  rw [renderWork]
  generalize clearWork s d p = p1
  intro h1
  have h2 : MemoryOk (tileWork cfg d p1).secOam 32 ∧ SpritesOk (tileWork cfg d p1) := by
    rw [tileWork]
    split <;> exact h1
  revert h2
  generalize tileWork cfg d p1 = p2
  intro h2
  have h3 : MemoryOk (lineWork s d p2).secOam 32 ∧ SpritesOk (lineWork s d p2) := by
    rw [lineWork]
    split
    · split
      · refine ⟨evaluateSprites_secOam_ok _ s h2.1, evaluateSprites_secCount _ s, ?_⟩
        rw [evaluateSprites_frame]
        exact h2.2.2
      · exact h2
    · exact h2
  revert h3
  generalize lineWork s d p2 = p3
  intro h3
  have h4 : MemoryOk (horizontalWork d p3).secOam 32 ∧ SpritesOk (horizontalWork d p3) := by
    rw [horizontalWork]
    split <;> exact h3
  revert h4
  generalize horizontalWork d p3 = p4
  intro h4
  have h5 : MemoryOk (verticalWork s d p4).secOam 32 ∧ SpritesOk (verticalWork s d p4) := by
    rw [verticalWork]
    split <;> exact h4
  revert h5
  generalize verticalWork s d p4 = p5
  intro h5
  rw [spriteWork]
  split
  · split
    · rw [loadSpriteSlots_frame]
      exact ⟨h5.1, h5.2.1, h5.2.1⟩
    · exact ⟨h5.1, h5.2.1, Nat.zero_le 8⟩
  · exact h5

/-- A dot of the raster keeps the PPU's memories in form. -/
theorem dotWork_ok (cfg : Config) (m : Mirroring) (p : Ppu) (s d : Nat) (h : PpuMemoriesOk m p) (hs : SpritesOk p) :
    PpuMemoriesOk m (dotWork cfg p s d) ∧ SpritesOk (dotWork cfg p s d) := by
  obtain ⟨h1, h2, h3, h4, h5⟩ := h
  have hp : PpuMemoriesOk m (pixelWork cfg s d p) ∧ SpritesOk (pixelWork cfg s d p) := by
    rw [pixelWork]
    split
    · next hc =>
      simp only [isVisible, Bool.and_eq_true, decide_eq_true_eq] at hc
      obtain ⟨c, hit, h⟩ := outputPixel_frame cfg p s (d - 1)
      rw [h]
      exact ⟨⟨h1, h2, h3, h4, Memory.wf_write _ _ _ h5.1, Memory.fits_write _ _ _ _ (by omega) h5.2⟩, hs⟩
    · exact ⟨⟨h1, h2, h3, h4, h5⟩, hs⟩
  have hq : PpuMemoriesOk m (statusWork s d (pixelWork cfg s d p)) ∧ SpritesOk (statusWork s d (pixelWork cfg s d p)) := by
    rw [statusWork_frame]
    exact hp
  simp only [dotWork]
  split
  · revert hq
    generalize statusWork s d (pixelWork cfg s d p) = q
    intro hq
    have hf := renderWork_frame cfg q s d
    obtain ⟨k1, k2⟩ := renderWork_ok cfg q s d hq.1.2.2.2.1 hq.2
    refine ⟨⟨?_, ?_, ?_, k1, ?_⟩, k2⟩
    · rw [hf.frame.eq]; exact hq.1.1
    · rw [hf.frame.eq]; exact hq.1.2.1
    · rw [hf.frame.eq]; exact hq.1.2.2.1
    · rw [hf.frameBuffer]; exact hq.1.2.2.2.2
  · exact hq

/-- A PPU step keeps the PPU's memories in form. -/
theorem ppuStep_ok (cfg : Config) (m : Mirroring) (p : Ppu) (h : PpuMemoriesOk m p) (hs : SpritesOk p) :
    PpuMemoriesOk m (ppuStep cfg p) ∧ SpritesOk (ppuStep cfg p) := dotWork_ok cfg m p _ _ h hs

end Sys2Proof.Machine
end

