-- ==== Sys2Proof/Tests/Slice0.lean ====
section
/-!
SUPPORT. The model's own tests. Expected results come from spec/: the encodings of R113, the vectors of 95_test_vectors.md
(`test_V<n>` is vector V<n>) and the rules named. The last part holds, for every obligation with hypotheses, a concrete case
that meets them, at the ends of its ranges.
-/

namespace Sys2Proof.Tests

open Sys2Proof.Machine Sys2Proof.Claims

/-! ### Well-formedness -/

/-- A displacement just past either end is refused (R112). -/
theorem test_wellFormed_refuses :
    (Instr.beq 128).wellFormed = false ∧ (Instr.beq (-129)).wellFormed = false ∧ (Instr.bne 128).wellFormed = false ∧
      (Instr.bne (-129)).wellFormed = false ∧ (Instr.bcc 128).wellFormed = false ∧ (Instr.bcs (-129)).wellFormed = false ∧
      (Instr.bmi 128).wellFormed = false ∧ (Instr.bpl (-129)).wellFormed = false ∧ (Instr.bvc 128).wellFormed = false ∧
      (Instr.bvs (-129)).wellFormed = false := by decide

theorem test_wellFormed_accepts :
    (Instr.beq 127).wellFormed = true ∧ (Instr.beq (-128)).wellFormed = true ∧ (Instr.bvs 127).wellFormed = true ∧
      (Instr.bvs (-128)).wellFormed = true ∧ (Instr.ldaImm 0xFF).wellFormed = true ∧ Instr.brk.wellFormed = true := by decide

/-! ### Decoding: one word of every row of R113 -/

theorem test_decode_lda :
    decode [0xA9, 0x9A] = .ok (.ldaImm 0x9A, []) ∧
      decode [0xA5, 0x9A] = .ok (.ldaZp 0x9A, []) ∧
      decode [0xB5, 0x9A] = .ok (.ldaZpX 0x9A, []) ∧
      decode [0xAD, 0x34, 0x12] = .ok (.ldaAbs 0x1234, []) ∧
      decode [0xBD, 0x34, 0x12] = .ok (.ldaAbsX 0x1234, []) ∧
      decode [0xB9, 0x34, 0x12] = .ok (.ldaAbsY 0x1234, []) ∧
      decode [0xA1, 0x9A] = .ok (.ldaIndX 0x9A, []) ∧
      decode [0xB1, 0x9A] = .ok (.ldaIndY 0x9A, []) :=
  ⟨rfl, rfl, rfl, rfl, rfl, rfl, rfl, rfl⟩

theorem test_decode_ldx :
    decode [0xA2, 0x9A] = .ok (.ldxImm 0x9A, []) ∧
      decode [0xA6, 0x9A] = .ok (.ldxZp 0x9A, []) ∧
      decode [0xB6, 0x9A] = .ok (.ldxZpY 0x9A, []) ∧
      decode [0xAE, 0x34, 0x12] = .ok (.ldxAbs 0x1234, []) ∧
      decode [0xBE, 0x34, 0x12] = .ok (.ldxAbsY 0x1234, []) :=
  ⟨rfl, rfl, rfl, rfl, rfl⟩

theorem test_decode_ldy :
    decode [0xA0, 0x9A] = .ok (.ldyImm 0x9A, []) ∧
      decode [0xA4, 0x9A] = .ok (.ldyZp 0x9A, []) ∧
      decode [0xB4, 0x9A] = .ok (.ldyZpX 0x9A, []) ∧
      decode [0xAC, 0x34, 0x12] = .ok (.ldyAbs 0x1234, []) ∧
      decode [0xBC, 0x34, 0x12] = .ok (.ldyAbsX 0x1234, []) :=
  ⟨rfl, rfl, rfl, rfl, rfl⟩

theorem test_decode_sta :
    decode [0x85, 0x9A] = .ok (.staZp 0x9A, []) ∧
      decode [0x95, 0x9A] = .ok (.staZpX 0x9A, []) ∧
      decode [0x8D, 0x34, 0x12] = .ok (.staAbs 0x1234, []) ∧
      decode [0x9D, 0x34, 0x12] = .ok (.staAbsX 0x1234, []) ∧
      decode [0x99, 0x34, 0x12] = .ok (.staAbsY 0x1234, []) ∧
      decode [0x81, 0x9A] = .ok (.staIndX 0x9A, []) ∧
      decode [0x91, 0x9A] = .ok (.staIndY 0x9A, []) :=
  ⟨rfl, rfl, rfl, rfl, rfl, rfl, rfl⟩

theorem test_decode_stx :
    decode [0x86, 0x9A] = .ok (.stxZp 0x9A, []) ∧
      decode [0x96, 0x9A] = .ok (.stxZpY 0x9A, []) ∧
      decode [0x8E, 0x34, 0x12] = .ok (.stxAbs 0x1234, []) :=
  ⟨rfl, rfl, rfl⟩

theorem test_decode_sty :
    decode [0x84, 0x9A] = .ok (.styZp 0x9A, []) ∧
      decode [0x94, 0x9A] = .ok (.styZpX 0x9A, []) ∧
      decode [0x8C, 0x34, 0x12] = .ok (.styAbs 0x1234, []) :=
  ⟨rfl, rfl, rfl⟩

theorem test_decode_tax_tay_tsx_txa_txs_tya :
    decode [0xAA] = .ok (.tax, []) ∧
      decode [0xA8] = .ok (.tay, []) ∧
      decode [0xBA] = .ok (.tsx, []) ∧
      decode [0x8A] = .ok (.txa, []) ∧
      decode [0x9A] = .ok (.txs, []) ∧
      decode [0x98] = .ok (.tya, []) :=
  ⟨rfl, rfl, rfl, rfl, rfl, rfl⟩

theorem test_decode_pha_php_pla_plp :
    decode [0x48] = .ok (.pha, []) ∧
      decode [0x08] = .ok (.php, []) ∧
      decode [0x68] = .ok (.pla, []) ∧
      decode [0x28] = .ok (.plp, []) :=
  ⟨rfl, rfl, rfl, rfl⟩

theorem test_decode_adc :
    decode [0x69, 0x9A] = .ok (.adcImm 0x9A, []) ∧
      decode [0x65, 0x9A] = .ok (.adcZp 0x9A, []) ∧
      decode [0x75, 0x9A] = .ok (.adcZpX 0x9A, []) ∧
      decode [0x6D, 0x34, 0x12] = .ok (.adcAbs 0x1234, []) ∧
      decode [0x7D, 0x34, 0x12] = .ok (.adcAbsX 0x1234, []) ∧
      decode [0x79, 0x34, 0x12] = .ok (.adcAbsY 0x1234, []) ∧
      decode [0x61, 0x9A] = .ok (.adcIndX 0x9A, []) ∧
      decode [0x71, 0x9A] = .ok (.adcIndY 0x9A, []) :=
  ⟨rfl, rfl, rfl, rfl, rfl, rfl, rfl, rfl⟩

theorem test_decode_sbc :
    decode [0xE9, 0x9A] = .ok (.sbcImm 0x9A, []) ∧
      decode [0xE5, 0x9A] = .ok (.sbcZp 0x9A, []) ∧
      decode [0xF5, 0x9A] = .ok (.sbcZpX 0x9A, []) ∧
      decode [0xED, 0x34, 0x12] = .ok (.sbcAbs 0x1234, []) ∧
      decode [0xFD, 0x34, 0x12] = .ok (.sbcAbsX 0x1234, []) ∧
      decode [0xF9, 0x34, 0x12] = .ok (.sbcAbsY 0x1234, []) ∧
      decode [0xE1, 0x9A] = .ok (.sbcIndX 0x9A, []) ∧
      decode [0xF1, 0x9A] = .ok (.sbcIndY 0x9A, []) :=
  ⟨rfl, rfl, rfl, rfl, rfl, rfl, rfl, rfl⟩

theorem test_decode_and :
    decode [0x29, 0x9A] = .ok (.andImm 0x9A, []) ∧
      decode [0x25, 0x9A] = .ok (.andZp 0x9A, []) ∧
      decode [0x35, 0x9A] = .ok (.andZpX 0x9A, []) ∧
      decode [0x2D, 0x34, 0x12] = .ok (.andAbs 0x1234, []) ∧
      decode [0x3D, 0x34, 0x12] = .ok (.andAbsX 0x1234, []) ∧
      decode [0x39, 0x34, 0x12] = .ok (.andAbsY 0x1234, []) ∧
      decode [0x21, 0x9A] = .ok (.andIndX 0x9A, []) ∧
      decode [0x31, 0x9A] = .ok (.andIndY 0x9A, []) :=
  ⟨rfl, rfl, rfl, rfl, rfl, rfl, rfl, rfl⟩

theorem test_decode_ora :
    decode [0x09, 0x9A] = .ok (.oraImm 0x9A, []) ∧
      decode [0x05, 0x9A] = .ok (.oraZp 0x9A, []) ∧
      decode [0x15, 0x9A] = .ok (.oraZpX 0x9A, []) ∧
      decode [0x0D, 0x34, 0x12] = .ok (.oraAbs 0x1234, []) ∧
      decode [0x1D, 0x34, 0x12] = .ok (.oraAbsX 0x1234, []) ∧
      decode [0x19, 0x34, 0x12] = .ok (.oraAbsY 0x1234, []) ∧
      decode [0x01, 0x9A] = .ok (.oraIndX 0x9A, []) ∧
      decode [0x11, 0x9A] = .ok (.oraIndY 0x9A, []) :=
  ⟨rfl, rfl, rfl, rfl, rfl, rfl, rfl, rfl⟩

theorem test_decode_eor :
    decode [0x49, 0x9A] = .ok (.eorImm 0x9A, []) ∧
      decode [0x45, 0x9A] = .ok (.eorZp 0x9A, []) ∧
      decode [0x55, 0x9A] = .ok (.eorZpX 0x9A, []) ∧
      decode [0x4D, 0x34, 0x12] = .ok (.eorAbs 0x1234, []) ∧
      decode [0x5D, 0x34, 0x12] = .ok (.eorAbsX 0x1234, []) ∧
      decode [0x59, 0x34, 0x12] = .ok (.eorAbsY 0x1234, []) ∧
      decode [0x41, 0x9A] = .ok (.eorIndX 0x9A, []) ∧
      decode [0x51, 0x9A] = .ok (.eorIndY 0x9A, []) :=
  ⟨rfl, rfl, rfl, rfl, rfl, rfl, rfl, rfl⟩

theorem test_decode_bit :
    decode [0x24, 0x9A] = .ok (.bitZp 0x9A, []) ∧
      decode [0x2C, 0x34, 0x12] = .ok (.bitAbs 0x1234, []) :=
  ⟨rfl, rfl⟩

theorem test_decode_inc :
    decode [0xE6, 0x9A] = .ok (.incZp 0x9A, []) ∧
      decode [0xF6, 0x9A] = .ok (.incZpX 0x9A, []) ∧
      decode [0xEE, 0x34, 0x12] = .ok (.incAbs 0x1234, []) ∧
      decode [0xFE, 0x34, 0x12] = .ok (.incAbsX 0x1234, []) :=
  ⟨rfl, rfl, rfl, rfl⟩

theorem test_decode_dec :
    decode [0xC6, 0x9A] = .ok (.decZp 0x9A, []) ∧
      decode [0xD6, 0x9A] = .ok (.decZpX 0x9A, []) ∧
      decode [0xCE, 0x34, 0x12] = .ok (.decAbs 0x1234, []) ∧
      decode [0xDE, 0x34, 0x12] = .ok (.decAbsX 0x1234, []) :=
  ⟨rfl, rfl, rfl, rfl⟩

theorem test_decode_inx_iny_dex_dey :
    decode [0xE8] = .ok (.inx, []) ∧
      decode [0xC8] = .ok (.iny, []) ∧
      decode [0xCA] = .ok (.dex, []) ∧
      decode [0x88] = .ok (.dey, []) :=
  ⟨rfl, rfl, rfl, rfl⟩

theorem test_decode_asl :
    decode [0x0A] = .ok (.aslAcc, []) ∧
      decode [0x06, 0x9A] = .ok (.aslZp 0x9A, []) ∧
      decode [0x16, 0x9A] = .ok (.aslZpX 0x9A, []) ∧
      decode [0x0E, 0x34, 0x12] = .ok (.aslAbs 0x1234, []) ∧
      decode [0x1E, 0x34, 0x12] = .ok (.aslAbsX 0x1234, []) :=
  ⟨rfl, rfl, rfl, rfl, rfl⟩

theorem test_decode_lsr :
    decode [0x4A] = .ok (.lsrAcc, []) ∧
      decode [0x46, 0x9A] = .ok (.lsrZp 0x9A, []) ∧
      decode [0x56, 0x9A] = .ok (.lsrZpX 0x9A, []) ∧
      decode [0x4E, 0x34, 0x12] = .ok (.lsrAbs 0x1234, []) ∧
      decode [0x5E, 0x34, 0x12] = .ok (.lsrAbsX 0x1234, []) :=
  ⟨rfl, rfl, rfl, rfl, rfl⟩

theorem test_decode_rol :
    decode [0x2A] = .ok (.rolAcc, []) ∧
      decode [0x26, 0x9A] = .ok (.rolZp 0x9A, []) ∧
      decode [0x36, 0x9A] = .ok (.rolZpX 0x9A, []) ∧
      decode [0x2E, 0x34, 0x12] = .ok (.rolAbs 0x1234, []) ∧
      decode [0x3E, 0x34, 0x12] = .ok (.rolAbsX 0x1234, []) :=
  ⟨rfl, rfl, rfl, rfl, rfl⟩

theorem test_decode_ror :
    decode [0x6A] = .ok (.rorAcc, []) ∧
      decode [0x66, 0x9A] = .ok (.rorZp 0x9A, []) ∧
      decode [0x76, 0x9A] = .ok (.rorZpX 0x9A, []) ∧
      decode [0x6E, 0x34, 0x12] = .ok (.rorAbs 0x1234, []) ∧
      decode [0x7E, 0x34, 0x12] = .ok (.rorAbsX 0x1234, []) :=
  ⟨rfl, rfl, rfl, rfl, rfl⟩

theorem test_decode_cmp :
    decode [0xC9, 0x9A] = .ok (.cmpImm 0x9A, []) ∧
      decode [0xC5, 0x9A] = .ok (.cmpZp 0x9A, []) ∧
      decode [0xD5, 0x9A] = .ok (.cmpZpX 0x9A, []) ∧
      decode [0xCD, 0x34, 0x12] = .ok (.cmpAbs 0x1234, []) ∧
      decode [0xDD, 0x34, 0x12] = .ok (.cmpAbsX 0x1234, []) ∧
      decode [0xD9, 0x34, 0x12] = .ok (.cmpAbsY 0x1234, []) ∧
      decode [0xC1, 0x9A] = .ok (.cmpIndX 0x9A, []) ∧
      decode [0xD1, 0x9A] = .ok (.cmpIndY 0x9A, []) :=
  ⟨rfl, rfl, rfl, rfl, rfl, rfl, rfl, rfl⟩

theorem test_decode_cpx :
    decode [0xE0, 0x9A] = .ok (.cpxImm 0x9A, []) ∧
      decode [0xE4, 0x9A] = .ok (.cpxZp 0x9A, []) ∧
      decode [0xEC, 0x34, 0x12] = .ok (.cpxAbs 0x1234, []) :=
  ⟨rfl, rfl, rfl⟩

theorem test_decode_cpy :
    decode [0xC0, 0x9A] = .ok (.cpyImm 0x9A, []) ∧
      decode [0xC4, 0x9A] = .ok (.cpyZp 0x9A, []) ∧
      decode [0xCC, 0x34, 0x12] = .ok (.cpyAbs 0x1234, []) :=
  ⟨rfl, rfl, rfl⟩

theorem test_decode_jmp :
    decode [0x4C, 0x34, 0x12] = .ok (.jmpAbs 0x1234, []) ∧
      decode [0x6C, 0x34, 0x12] = .ok (.jmpInd 0x1234, []) :=
  ⟨rfl, rfl⟩

theorem test_decode_bcc_bcs_beq_bmi_bne_bpl_bvc_bvs_jsr_rts :
    decode [0x90, 0xFE] = .ok (.bcc (-2), []) ∧
      decode [0xB0, 0xFE] = .ok (.bcs (-2), []) ∧
      decode [0xF0, 0xFE] = .ok (.beq (-2), []) ∧
      decode [0x30, 0xFE] = .ok (.bmi (-2), []) ∧
      decode [0xD0, 0xFE] = .ok (.bne (-2), []) ∧
      decode [0x10, 0xFE] = .ok (.bpl (-2), []) ∧
      decode [0x50, 0xFE] = .ok (.bvc (-2), []) ∧
      decode [0x70, 0xFE] = .ok (.bvs (-2), []) ∧
      decode [0x20, 0x34, 0x12] = .ok (.jsr 0x1234, []) ∧
      decode [0x60] = .ok (.rts, []) :=
  ⟨rfl, rfl, rfl, rfl, rfl, rfl, rfl, rfl, rfl, rfl⟩

theorem test_decode_clc_cld_cli_clv_sec_sed_sei_nop_brk_rti :
    decode [0x18] = .ok (.clc, []) ∧
      decode [0xD8] = .ok (.cld, []) ∧
      decode [0x58] = .ok (.cli, []) ∧
      decode [0xB8] = .ok (.clv, []) ∧
      decode [0x38] = .ok (.sec, []) ∧
      decode [0xF8] = .ok (.sed, []) ∧
      decode [0x78] = .ok (.sei, []) ∧
      decode [0xEA] = .ok (.nop, []) ∧
      decode [0x00] = .ok (.brk, []) ∧
      decode [0x40] = .ok (.rti, []) :=
  ⟨rfl, rfl, rfl, rfl, rfl, rfl, rfl, rfl, rfl, rfl⟩

/-- One word of each family, bit by bit: the opcode column of R113 in binary. -/
theorem test_decode_bits :
    decode [0b10101101, 0b11001101, 0b10101011] = .ok (.ldaAbs 0xABCD, []) ∧ decode [0b10111010] = .ok (.tsx, []) ∧
      decode [0b00101000] = .ok (.plp, []) ∧ decode [0b11101001, 0b00000001] = .ok (.sbcImm 0x01, []) ∧
      decode [0b11110110, 0b01000000] = .ok (.incZpX 0x40, []) ∧ decode [0b00101010] = .ok (.rolAcc, []) ∧
      decode [0b11011001, 0b00000000, 0b00000010] = .ok (.cmpAbsY 0x0200, []) ∧
      decode [0b01110000, 0b10000000] = .ok (.bvs (-128), []) ∧ decode [0b10111000] = .ok (.clv, []) :=
  ⟨rfl, rfl, rfl, rfl, rfl, rfl, rfl, rfl, rfl⟩

theorem test_decode_illegal :
    decode [0x02, 0xEA] = .error (.illegalOpcode 0x02) ∧ decode [0xFF] = .error (.illegalOpcode 0xFF) := ⟨rfl, rfl⟩

/-- A little-endian operand, and the bytes after the instruction left alone (R112, R117). -/
theorem test_encode :
    encode (.jmpInd 0x02FF) = [0x6C, 0xFF, 0x02] ∧ encode (.bne (-2)) = [0xD0, 0xFE] ∧
      decode [0x4C, 0x00, 0x80, 0x11] = .ok (.jmpAbs 0x8000, [0x11]) := ⟨rfl, rfl, rfl⟩

/-! ### One step of an instruction (95_test_vectors.md, parts 1 and 2) -/

/-- The vectors' cartridge: code in PRG ROM, the NMI and BRK vectors at `$9000`. -/
def cartridge (brk : BrkMode) (address : Nat) (code : List Byte) : Config :=
  { Config.blank with
    brkMode := brk
    prgRom := (((code.zipIdx.foldl (fun (m : Memory 8) (cell : Byte × Nat) => m.write (address - 0x8000 + cell.2) cell.1)
      []).write 0x3FFB 0x90).write 0x3FFD 0x80).write 0x3FFF 0x90 }

/-- The vectors' machine: reset, then RAM cells and registers as the vector says, about to run the code. -/
def machine (brk : BrkMode) (address : Nat) (code : List Byte) (ram : List (Nat × Byte)) (set : Cpu → Cpu) : State :=
  ((State.powerOn (cartridge brk address code) (BitVec.ofNat 16 address)).mapBus fun b =>
    { b with ram := ram.foldl (fun (m : Memory 8) (cell : Nat × Byte) => m.write cell.1 cell.2) b.ram }).mapCpu set

/-- One instruction ends with these registers (A, X, Y, SP, P, PC, cycles owed) and these RAM cells. -/
def endsWith (s : State) (regs : List Nat) (cells : List (Nat × Nat)) (status : RunStatus) : Bool :=
  match executeOne s with
  | .next t =>
    decide ([t.cpu.a.toNat, t.cpu.x.toNat, t.cpu.y.toNat, t.cpu.sp.toNat, t.cpu.p.toNat, t.cpu.pc.toNat, t.cpu.idleCycles] =
      regs) && cells.all (fun cell => (t.bus.ram.read cell.1).toNat == cell.2) && decide (t.cpu.runStatus = status)
  | .fault _ => false
  | .refused _ => false

theorem test_V2 :
    endsWith (machine .vector 0x8000 [0xA9, 0x80] [] (fun c => c))
      [0x80, 0x00, 0x00, 0xFD, 0xA4, 0x8002, 1] [] .running = true := by decide

theorem test_V3 :
    endsWith (machine .vector 0x8000 [0xA5, 0x10] [(0x0010, 0x42)] (fun c => c))
      [0x42, 0x00, 0x00, 0xFD, 0x24, 0x8002, 2] [] .running = true := by decide

theorem test_V4 :
    endsWith (machine .vector 0x8000 [0xB5, 0xFF] [(0x0001, 0x37), (0x0101, 0x99)] (fun c => { c with x := 0x02 }))
      [0x37, 0x02, 0x00, 0xFD, 0x24, 0x8002, 3] [] .running = true := by decide

theorem test_V8 :
    endsWith (machine .vector 0x8000 [0xB9, 0x80, 0x03] [(0x0400, 0x33)] (fun c => { c with y := 0x80 }))
      [0x33, 0x00, 0x80, 0xFD, 0x24, 0x8003, 4] [] .running = true := by decide

theorem test_V9 :
    endsWith (machine .vector 0x8000 [0xBD, 0xFF, 0xFF] [(0x0001, 0x44)] (fun c => { c with x := 0x02 }))
      [0x44, 0x02, 0x00, 0xFD, 0x24, 0x8003, 4] [] .running = true := by decide

theorem test_V10 :
    endsWith (machine .vector 0x8000 [0xA1, 0xFE] [(0x0000, 0x03), (0x00FF, 0x00), (0x0300, 0x5A)] (fun c => { c with x := 0x01 }))
      [0x5A, 0x01, 0x00, 0xFD, 0x24, 0x8002, 5] [] .running = true := by decide

theorem test_V11 :
    endsWith (machine .vector 0x8000 [0xB1, 0x20] [(0x0020, 0xF8), (0x0021, 0x02), (0x0308, 0x66)] (fun c => { c with y := 0x10 }))
      [0x66, 0x00, 0x10, 0xFD, 0x24, 0x8002, 5] [] .running = true := by decide

theorem test_V12 :
    endsWith (machine .vector 0x8000 [0xB1, 0xFF] [(0x0000, 0x04), (0x00FF, 0x10), (0x0410, 0x77)] (fun c => { c with y := 0x00 }))
      [0x77, 0x00, 0x00, 0xFD, 0x24, 0x8002, 4] [] .running = true := by decide

theorem test_V13 :
    endsWith (machine .vector 0x8000 [0xB6, 0xFE] [(0x0002, 0x80)] (fun c => { c with y := 0x04 }))
      [0x00, 0x80, 0x04, 0xFD, 0xA4, 0x8002, 3] [] .running = true := by decide

theorem test_V14 :
    endsWith (machine .vector 0x8000 [0xBE, 0xF0, 0x01] [(0x0210, 0x00)] (fun c => { c with y := 0x20 }))
      [0x00, 0x00, 0x20, 0xFD, 0x26, 0x8003, 4] [] .running = true := by decide

theorem test_V15 :
    endsWith (machine .vector 0x8000 [0xB4, 0x80] [(0x0081, 0xC3)] (fun c => { c with x := 0x01 }))
      [0x00, 0x01, 0xC3, 0xFD, 0xA4, 0x8002, 3] [] .running = true := by decide

theorem test_V16 :
    endsWith (machine .vector 0x8000 [0xBC, 0x01, 0x06] [(0x0700, 0x01)] (fun c => { c with x := 0xFF }))
      [0x00, 0xFF, 0x01, 0xFD, 0x24, 0x8003, 4] [] .running = true := by decide

theorem test_V17 :
    endsWith (machine .vector 0x8000 [0x9D, 0xFF, 0x02] [] (fun c => { c with a := 0x9C, x := 0x01 }))
      [0x9C, 0x01, 0x00, 0xFD, 0x24, 0x8003, 4] [(0x0300, 0x9C)] .running = true := by decide

theorem test_V18 :
    endsWith (machine .vector 0x8000 [0x91, 0x40] [(0x0040, 0xFF), (0x0041, 0x02)] (fun c => { c with a := 0xAB, y := 0x01 }))
      [0xAB, 0x00, 0x01, 0xFD, 0x24, 0x8002, 5] [(0x0300, 0xAB)] .running = true := by decide

theorem test_V21 :
    endsWith (machine .vector 0x8000 [0x96, 0xFF] [] (fun c => { c with x := 0x3C, y := 0x01 }))
      [0x00, 0x3C, 0x01, 0xFD, 0x24, 0x8002, 3] [(0x0000, 0x3C)] .running = true := by decide

theorem test_V22 :
    endsWith (machine .vector 0x8000 [0x94, 0x10] [] (fun c => { c with x := 0x01, y := 0x00, p := 0xA5 }))
      [0x00, 0x01, 0x00, 0xFD, 0xA5, 0x8002, 3] [] .running = true := by decide

theorem test_V23 :
    endsWith (machine .vector 0x8000 [0xAA] [] (fun c => { c with a := 0x00, x := 0x12 }))
      [0x00, 0x00, 0x00, 0xFD, 0x26, 0x8001, 1] [] .running = true := by decide

theorem test_V24 :
    endsWith (machine .vector 0x8000 [0xA8] [] (fun c => { c with a := 0x90 }))
      [0x90, 0x00, 0x90, 0xFD, 0xA4, 0x8001, 1] [] .running = true := by decide

theorem test_V25 :
    endsWith (machine .vector 0x8000 [0xBA] [] (fun c => { c with sp := 0xFD }))
      [0x00, 0xFD, 0x00, 0xFD, 0xA4, 0x8001, 1] [] .running = true := by decide

theorem test_V26 :
    endsWith (machine .vector 0x8000 [0x8A] [] (fun c => { c with a := 0xFF, x := 0x01 }))
      [0x01, 0x01, 0x00, 0xFD, 0x24, 0x8001, 1] [] .running = true := by decide

theorem test_V27 :
    endsWith (machine .vector 0x8000 [0x9A] [] (fun c => { c with x := 0x00, p := 0x24 }))
      [0x00, 0x00, 0x00, 0x00, 0x24, 0x8001, 1] [] .running = true := by decide

theorem test_V28 :
    endsWith (machine .vector 0x8000 [0x98] [] (fun c => { c with y := 0x80 }))
      [0x80, 0x00, 0x80, 0xFD, 0xA4, 0x8001, 1] [] .running = true := by decide

theorem test_V29 :
    endsWith (machine .vector 0x8000 [0x48] [] (fun c => { c with a := 0x5E }))
      [0x5E, 0x00, 0x00, 0xFC, 0x24, 0x8001, 2] [(0x01FD, 0x5E)] .running = true := by decide

theorem test_V30 :
    endsWith (machine .vector 0x8000 [0x48] [] (fun c => { c with a := 0x11, sp := 0x00 }))
      [0x11, 0x00, 0x00, 0xFF, 0x24, 0x8001, 2] [(0x0100, 0x11)] .running = true := by decide

theorem test_V31 :
    endsWith (machine .vector 0x8000 [0x08] [] (fun c => { c with p := 0xC3 }))
      [0x00, 0x00, 0x00, 0xFC, 0xC3, 0x8001, 2] [(0x01FD, 0xF3)] .running = true := by decide

theorem test_V32 :
    endsWith (machine .vector 0x8000 [0x68] [(0x01FD, 0x80)] (fun c => { c with sp := 0xFC }))
      [0x80, 0x00, 0x00, 0xFD, 0xA4, 0x8001, 3] [] .running = true := by decide

theorem test_V33 :
    endsWith (machine .vector 0x8000 [0x68] [(0x0100, 0x00)] (fun c => { c with a := 0x33, sp := 0xFF }))
      [0x00, 0x00, 0x00, 0x00, 0x26, 0x8001, 3] [] .running = true := by decide

theorem test_V34 :
    endsWith (machine .vector 0x8000 [0x28] [(0x01FD, 0xFF)] (fun c => { c with sp := 0xFC }))
      [0x00, 0x00, 0x00, 0xFD, 0xEF, 0x8001, 3] [] .running = true := by decide

theorem test_V35 :
    endsWith (machine .vector 0x8000 [0x28] [(0x01FD, 0x00)] (fun c => { c with sp := 0xFC }))
      [0x00, 0x00, 0x00, 0xFD, 0x20, 0x8001, 3] [] .running = true := by decide

theorem test_V36 :
    endsWith (machine .vector 0x8000 [0x69, 0x01] [] (fun c => { c with a := 0x7F }))
      [0x80, 0x00, 0x00, 0xFD, 0xE4, 0x8002, 1] [] .running = true := by decide

theorem test_V37 :
    endsWith (machine .vector 0x8000 [0x69, 0x01] [] (fun c => { c with a := 0xFF }))
      [0x00, 0x00, 0x00, 0xFD, 0x27, 0x8002, 1] [] .running = true := by decide

theorem test_V41 :
    endsWith (machine .vector 0x8000 [0xE9, 0xF0] [] (fun c => { c with a := 0x50, p := 0x25 }))
      [0x60, 0x00, 0x00, 0xFD, 0x24, 0x8002, 1] [] .running = true := by decide

theorem test_V42 :
    endsWith (machine .vector 0x8000 [0xE9, 0xB0] [] (fun c => { c with a := 0x50, p := 0x25 }))
      [0xA0, 0x00, 0x00, 0xFD, 0xE4, 0x8002, 1] [] .running = true := by decide

theorem test_V46 :
    endsWith (machine .vector 0x8000 [0x29, 0x0F] [] (fun c => { c with a := 0xF0 }))
      [0x00, 0x00, 0x00, 0xFD, 0x26, 0x8002, 1] [] .running = true := by decide

theorem test_V47 :
    endsWith (machine .vector 0x8000 [0x09, 0x80] [] (fun c => { c with a := 0x01 }))
      [0x81, 0x00, 0x00, 0xFD, 0xA4, 0x8002, 1] [] .running = true := by decide

theorem test_V48 :
    endsWith (machine .vector 0x8000 [0x49, 0xFF] [] (fun c => { c with a := 0xFF }))
      [0x00, 0x00, 0x00, 0xFD, 0x26, 0x8002, 1] [] .running = true := by decide

theorem test_V49 :
    endsWith (machine .vector 0x8000 [0x24, 0x10] [(0x0010, 0xC0)] (fun c => { c with a := 0x01 }))
      [0x01, 0x00, 0x00, 0xFD, 0xE6, 0x8002, 2] [] .running = true := by decide

theorem test_V50 :
    endsWith (machine .vector 0x8000 [0x2C, 0x00, 0x03] [(0x0300, 0x01)] (fun c => { c with a := 0xFF, p := 0xE4 }))
      [0xFF, 0x00, 0x00, 0xFD, 0x24, 0x8003, 3] [] .running = true := by decide

theorem test_V51 :
    endsWith (machine .vector 0x8000 [0xE6, 0x10] [(0x0010, 0xFF)] (fun c => c))
      [0x00, 0x00, 0x00, 0xFD, 0x26, 0x8002, 4] [(0x0010, 0x00)] .running = true := by decide

theorem test_V52 :
    endsWith (machine .vector 0x8000 [0xFE, 0xFF, 0x02] [(0x0300, 0x7F)] (fun c => { c with x := 0x01 }))
      [0x00, 0x01, 0x00, 0xFD, 0xA4, 0x8003, 6] [(0x0300, 0x80)] .running = true := by decide

theorem test_V53 :
    endsWith (machine .vector 0x8000 [0xC6, 0x10] [(0x0010, 0x00)] (fun c => c))
      [0x00, 0x00, 0x00, 0xFD, 0xA4, 0x8002, 4] [(0x0010, 0xFF)] .running = true := by decide

theorem test_V54 :
    endsWith (machine .vector 0x8000 [0xCE, 0x00, 0xC0] [] (fun c => c))
      [0x00, 0x00, 0x00, 0xFD, 0x24, 0x8000, 0] [] (.faulted (.prgRomWrite 0xC000)) = true := by decide

theorem test_V55 :
    endsWith (machine .vector 0x8000 [0xE8] [] (fun c => { c with x := 0xFF }))
      [0x00, 0x00, 0x00, 0xFD, 0x26, 0x8001, 1] [] .running = true := by decide

theorem test_V56 :
    endsWith (machine .vector 0x8000 [0xC8] [] (fun c => { c with y := 0x7F }))
      [0x00, 0x00, 0x80, 0xFD, 0xA4, 0x8001, 1] [] .running = true := by decide

theorem test_V57 :
    endsWith (machine .vector 0x8000 [0xCA] [] (fun c => { c with x := 0x01 }))
      [0x00, 0x00, 0x00, 0xFD, 0x26, 0x8001, 1] [] .running = true := by decide

theorem test_V58 :
    endsWith (machine .vector 0x8000 [0x88] [] (fun c => { c with y := 0x00 }))
      [0x00, 0x00, 0xFF, 0xFD, 0xA4, 0x8001, 1] [] .running = true := by decide

theorem test_V59 :
    endsWith (machine .vector 0x8000 [0x0A] [] (fun c => { c with a := 0x80 }))
      [0x00, 0x00, 0x00, 0xFD, 0x27, 0x8001, 1] [] .running = true := by decide

theorem test_V60 :
    endsWith (machine .vector 0x8000 [0x06, 0x10] [(0x0010, 0x41)] (fun c => c))
      [0x00, 0x00, 0x00, 0xFD, 0xA4, 0x8002, 4] [(0x0010, 0x82)] .running = true := by decide

theorem test_V61 :
    endsWith (machine .vector 0x8000 [0x4A] [] (fun c => { c with a := 0x01 }))
      [0x00, 0x00, 0x00, 0xFD, 0x27, 0x8001, 1] [] .running = true := by decide

theorem test_V62 :
    endsWith (machine .vector 0x8000 [0x5E, 0xFF, 0x02] [(0x0300, 0x81)] (fun c => { c with x := 0x01 }))
      [0x00, 0x01, 0x00, 0xFD, 0x25, 0x8003, 6] [(0x0300, 0x40)] .running = true := by decide

theorem test_V63 :
    endsWith (machine .vector 0x8000 [0x2A] [] (fun c => { c with a := 0x80, p := 0x25 }))
      [0x01, 0x00, 0x00, 0xFD, 0x25, 0x8001, 1] [] .running = true := by decide

theorem test_V64 :
    endsWith (machine .vector 0x8000 [0x26, 0x10] [(0x0010, 0x40)] (fun c => c))
      [0x00, 0x00, 0x00, 0xFD, 0xA4, 0x8002, 4] [(0x0010, 0x80)] .running = true := by decide

theorem test_V65 :
    endsWith (machine .vector 0x8000 [0x6A] [] (fun c => { c with a := 0x01, p := 0x25 }))
      [0x80, 0x00, 0x00, 0xFD, 0xA5, 0x8001, 1] [] .running = true := by decide

theorem test_V66 :
    endsWith (machine .vector 0x8000 [0x66, 0x10] [(0x0010, 0x02)] (fun c => c))
      [0x00, 0x00, 0x00, 0xFD, 0x24, 0x8002, 4] [(0x0010, 0x01)] .running = true := by decide

theorem test_V67 :
    endsWith (machine .vector 0x8000 [0xC9, 0x40] [] (fun c => { c with a := 0x40 }))
      [0x40, 0x00, 0x00, 0xFD, 0x27, 0x8002, 1] [] .running = true := by decide

theorem test_V68 :
    endsWith (machine .vector 0x8000 [0xC9, 0x41] [] (fun c => { c with a := 0x40 }))
      [0x40, 0x00, 0x00, 0xFD, 0xA4, 0x8002, 1] [] .running = true := by decide

theorem test_V71 :
    endsWith (machine .vector 0x8000 [0xE0, 0x10] [] (fun c => { c with x := 0x20 }))
      [0x00, 0x20, 0x00, 0xFD, 0x25, 0x8002, 1] [] .running = true := by decide

theorem test_V72 :
    endsWith (machine .vector 0x8000 [0xC0, 0x80] [] (fun c => { c with y := 0x00 }))
      [0x00, 0x00, 0x00, 0xFD, 0xA4, 0x8002, 1] [] .running = true := by decide

theorem test_V73 :
    endsWith (machine .vector 0x8000 [0xF0, 0x10] [] (fun c => { c with p := 0x24 }))
      [0x00, 0x00, 0x00, 0xFD, 0x24, 0x8002, 1] [] .running = true := by decide

theorem test_V74 :
    endsWith (machine .vector 0x8000 [0xF0, 0x10] [] (fun c => { c with p := 0x26 }))
      [0x00, 0x00, 0x00, 0xFD, 0x26, 0x8012, 2] [] .running = true := by decide

theorem test_V75 :
    endsWith (machine .vector 0x8000 [0xD0, 0xFE] [] (fun c => { c with p := 0x24 }))
      [0x00, 0x00, 0x00, 0xFD, 0x24, 0x8000, 2] [] .running = true := by decide

theorem test_V76 :
    endsWith (machine .vector 0x80F0 [0x90, 0x05] [] (fun c => c))
      [0x00, 0x00, 0x00, 0xFD, 0x24, 0x80F7, 2] [] .running = true := by decide

theorem test_V77 :
    endsWith (machine .vector 0x80F0 [0x90, 0x10] [] (fun c => c))
      [0x00, 0x00, 0x00, 0xFD, 0x24, 0x8102, 3] [] .running = true := by decide

theorem test_V78 :
    endsWith (machine .vector 0x8100 [0xB0, 0x80] [] (fun c => { c with p := 0x25 }))
      [0x00, 0x00, 0x00, 0xFD, 0x25, 0x8082, 3] [] .running = true := by decide

theorem test_V79 :
    endsWith (machine .vector 0x80FD [0xB0, 0x01] [] (fun c => { c with p := 0x25 }))
      [0x00, 0x00, 0x00, 0xFD, 0x25, 0x8100, 3] [] .running = true := by decide

theorem test_V80 :
    endsWith (machine .vector 0x8000 [0x30, 0x02] [] (fun c => { c with p := 0xA4 }))
      [0x00, 0x00, 0x00, 0xFD, 0xA4, 0x8004, 2] [] .running = true := by decide

theorem test_V81 :
    endsWith (machine .vector 0x8000 [0x10, 0x02] [] (fun c => { c with p := 0x24 }))
      [0x00, 0x00, 0x00, 0xFD, 0x24, 0x8004, 2] [] .running = true := by decide

theorem test_V82 :
    endsWith (machine .vector 0x8000 [0x50, 0x02] [] (fun c => { c with p := 0x24 }))
      [0x00, 0x00, 0x00, 0xFD, 0x24, 0x8004, 2] [] .running = true := by decide

theorem test_V83 :
    endsWith (machine .vector 0x8000 [0x70, 0x02] [] (fun c => { c with p := 0x24 }))
      [0x00, 0x00, 0x00, 0xFD, 0x24, 0x8002, 1] [] .running = true := by decide

theorem test_V84 :
    endsWith (machine .vector 0x8000 [0x4C, 0x34, 0x92] [] (fun c => c))
      [0x00, 0x00, 0x00, 0xFD, 0x24, 0x9234, 2] [] .running = true := by decide

theorem test_V86 :
    endsWith (machine .vector 0x8000 [0x6C, 0xFF, 0x02] [(0x0200, 0x90), (0x02FF, 0x00), (0x0300, 0xA0)] (fun c => c))
      [0x00, 0x00, 0x00, 0xFD, 0x24, 0x9000, 4] [] .running = true := by decide

theorem test_V87 :
    endsWith (machine .vector 0x8000 [0x20, 0x00, 0x90] [] (fun c => c))
      [0x00, 0x00, 0x00, 0xFB, 0x24, 0x9000, 5] [(0x01FC, 0x02), (0x01FD, 0x80)] .running = true := by decide

theorem test_V88 :
    endsWith (machine .vector 0x8000 [0x60] [(0x01FC, 0x02), (0x01FD, 0x80)] (fun c => { c with sp := 0xFB }))
      [0x00, 0x00, 0x00, 0xFD, 0x24, 0x8003, 5] [] .running = true := by decide

theorem test_V89 :
    endsWith (machine .vector 0x8000 [0x18] [] (fun c => { c with p := 0xFF }))
      [0x00, 0x00, 0x00, 0xFD, 0xFE, 0x8001, 1] [] .running = true := by decide

theorem test_V90 :
    endsWith (machine .vector 0x8000 [0xD8] [] (fun c => { c with p := 0x2C }))
      [0x00, 0x00, 0x00, 0xFD, 0x24, 0x8001, 1] [] .running = true := by decide

theorem test_V91 :
    endsWith (machine .vector 0x8000 [0x58] [] (fun c => { c with p := 0x24 }))
      [0x00, 0x00, 0x00, 0xFD, 0x20, 0x8001, 1] [] .running = true := by decide

theorem test_V92 :
    endsWith (machine .vector 0x8000 [0xB8] [] (fun c => { c with p := 0x64 }))
      [0x00, 0x00, 0x00, 0xFD, 0x24, 0x8001, 1] [] .running = true := by decide

theorem test_V93 :
    endsWith (machine .vector 0x8000 [0x38] [] (fun c => c))
      [0x00, 0x00, 0x00, 0xFD, 0x25, 0x8001, 1] [] .running = true := by decide

theorem test_V94 :
    endsWith (machine .vector 0x8000 [0xF8] [] (fun c => c))
      [0x00, 0x00, 0x00, 0xFD, 0x2C, 0x8001, 1] [] .running = true := by decide

theorem test_V95 :
    endsWith (machine .vector 0x8000 [0x78] [] (fun c => { c with p := 0x20 }))
      [0x00, 0x00, 0x00, 0xFD, 0x24, 0x8001, 1] [] .running = true := by decide

theorem test_V96 :
    endsWith (machine .vector 0x8000 [0xEA] [] (fun c => { c with a := 0x12, p := 0xE7 }))
      [0x12, 0x00, 0x00, 0xFD, 0xE7, 0x8001, 1] [] .running = true := by decide

theorem test_V97 :
    endsWith (machine .vector 0x8000 [0x00] [] (fun c => { c with a := 0x00, p := 0x24 }))
      [0x00, 0x00, 0x00, 0xFA, 0x24, 0x9000, 6] [(0x01FB, 0x34), (0x01FC, 0x02), (0x01FD, 0x80)] .running = true := by decide

theorem test_V98 :
    endsWith (machine .halt 0x8000 [0x00] [] (fun c => c))
      [0x00, 0x00, 0x00, 0xFD, 0x24, 0x8000, 6] [] .halted = true := by decide

theorem test_V99 :
    endsWith (machine .vector 0x8000 [0x40] [(0x01FB, 0xD3), (0x01FC, 0x34), (0x01FD, 0x12)] (fun c => { c with sp := 0xFA }))
      [0x00, 0x00, 0x00, 0xFD, 0xE3, 0x1234, 5] [] .running = true := by decide

theorem test_V100 :
    endsWith (machine .vector 0x8000 [0x02] [] (fun c => c))
      [0x00, 0x00, 0x00, 0xFD, 0x24, 0x8000, 0] [] (.faulted (.unknownOpcode 0x02 0x8000)) = true := by decide

theorem test_V101 :
    endsWith (machine .vector 0x8000 [0xFF] [] (fun c => c))
      [0x00, 0x00, 0x00, 0xFD, 0x24, 0x8000, 0] [] (.faulted (.unknownOpcode 0xFF 0x8000)) = true := by decide

/-! ### Bus, PPU and schedule (95_test_vectors.md, parts 1 and 2) -/

/-- The value of a read that goes through. -/
def valueAt (a : Word) (s : State) : Option Byte :=
  match memRead a s with
  | .done v _ => some v
  | .stopped _ _ => none

/-- The fault of a write that raises one. -/
def writeFaultAt (a : Word) (d : Byte) (s : State) : Option Fault :=
  match memWrite a d s with
  | .done _ _ => none
  | .stopped f _ => some f

theorem test_reset_memories_in_form :
    State.reset.bus.ram.wf = true ∧ State.reset.bus.scratch.wf = true ∧ State.reset.bus.prgRam.wf = true ∧
      State.reset.ppu.vram.wf = true ∧ State.reset.ppu.oam.wf = true ∧ State.reset.ppu.frameBuffer.wf = true := by decide

/-- Writing zero takes a cell off the list; the order of writes leaves no trace. -/
theorem test_memory_canonical :
    let empty : Memory 8 := []
    Memory.write (Memory.write (Memory.write empty 7 1) 3 2) 7 0 = [(3, 2)] ∧
      Memory.write (Memory.write empty 7 1) 3 2 = Memory.write (Memory.write empty 3 2) 7 1 := by decide

theorem test_V102 :
    let s := afterWrite 0x0801 0x5A State.reset
    valueAt 0x0001 s = some 0x5A ∧ valueAt 0x1001 s = some 0x5A ∧ valueAt 0x1801 s = some 0x5A := by decide

theorem test_V104_V105 :
    let s := afterWrite 0x7FFF 0x02 (afterWrite 0x6000 0x01 (afterWrite 0x5FFF 0x98 (afterWrite 0x4020 0x99 State.reset)))
    valueAt 0x4020 s = some 0x99 ∧ valueAt 0x5FFF s = some 0x98 ∧ valueAt 0x6000 s = some 0x01 ∧
      valueAt 0x7FFF s = some 0x02 := by decide

theorem test_V112 : writeFaultAt 0xFFFF 0x00 State.reset = some (.prgRomWrite 0xFFFF) := by decide

theorem test_V113_V115 :
    let s := State.reset.mapBus fun b => { b with pad0 := { b.pad0 with buttons := 0x95 }, pad1 := { b.pad1 with buttons := 0x02 } }
    valueAt 0x4016 (afterReads 0x4016 1 (afterWrite 0x4016 0x01 s)) = some 0x41 ∧
      valueAt 0x4016 (afterReads 0x4016 1 s) = some 0x40 ∧ valueAt 0x4016 (afterReads 0x4016 9 s) = some 0x41 ∧
      valueAt 0x4017 (afterReads 0x4017 1 s) = some 0x41 ∧ valueAt 0x4017 (afterReads 0x4017 2 s) = some 0x40 := by decide

theorem test_V118_start :
    let s := afterWrite 0x4014 0x02 (State.reset.mapCpu fun c => { c with cycles := 9 })
    s.cpu.idleCycles = 514 ∧ s.bus.dma = ⟨true, 0x02, 0, 2, .read, 0x00⟩ := by decide

theorem test_V119_start :
    let s := afterWrite 0x4014 0x02 (State.reset.mapCpu fun c => { c with cycles := 12 })
    s.cpu.idleCycles = 513 ∧ s.bus.dma.align = 1 := by decide

theorem test_V121 : (afterWrite 0x2000 0x03 State.reset).ppu.t = 0x0C00 := by decide

theorem test_V122_to_V125 :
    let s1 := afterWrite 0x2005 0x7D State.reset
    let s2 := afterWrite 0x2005 0x5E s1
    let s3 := afterWrite 0x2006 0x3D s2
    let s4 := afterWrite 0x2006 0xF0 s3
    (s1.ppu.t = 0x000F ∧ s1.ppu.fineX = 5 ∧ s1.ppu.w = true) ∧ (s2.ppu.t = 0x616F ∧ s2.ppu.w = false) ∧
      s3.ppu.t = 0x3D6F ∧ (s4.ppu.v = 0x3DF0 ∧ s4.ppu.t = 0x3DF0 ∧ s4.ppu.w = false) := by decide

theorem test_V126_status :
    let s := State.reset.mapPpu fun p => { p with status := ⟨true, true, true⟩, w := true }
    let t := afterReads 0x2002 1 s
    t.ppu.status = ⟨false, true, true⟩ ∧ t.ppu.w = false := by decide

theorem test_V128_V129 :
    let s := afterWrite 0x2004 0x33 (afterWrite 0x2004 0x22 (afterWrite 0x2004 0x11 (afterWrite 0x2003 0xFE State.reset)))
    (s.ppu.oam.read 0xFE = 0x11 ∧ s.ppu.oam.read 0xFF = 0x22 ∧ s.ppu.oam.read 0x00 = 0x33 ∧ s.ppu.oamAddr = 0x01) ∧
      valueAt 0x2004 (afterReads 0x2004 1 (afterWrite 0x2003 0xFF s)) = some 0x22 := by decide

theorem test_V132 :
    let s := State.reset.mapPpu fun p => { p with ctrl := 0x04, v := 0x2000 }
    let t := afterWrite 0x2007 0x02 (afterWrite 0x2007 0x01 s)
    t.ppu.vram.read 0x000 = 0x01 ∧ t.ppu.vram.read 0x020 = 0x02 ∧ t.ppu.v = 0x2040 := by decide

theorem test_V134 :
    let s := State.reset.mapPpu fun p => { p with vram := p.vram.write 0x700 0x5C, v := 0x3F00 }
    valueAt 0x2007 s = some 0x00 ∧ (afterReads 0x2007 1 s).ppu.readBuffer = 0x5C := by decide

theorem test_V139_V141 :
    let s := State.reset.mapPpu fun p => { p with v := 0x3FFF }
    writeFaultAt 0x2007 0x01 State.reset = some (.chrRomWrite 0x0000) ∧ (afterWrite 0x2007 0x01 s).ppu.palette.read 0x1F = 0x01 ∧
      (afterWrite 0x2007 0x01 s).ppu.v = 0x4000 ∧ valueAt 0x2007 (afterWrite 0x2007 0x01 s) = none := by decide

theorem test_E6_E7 :
    coarseXIncrement 0x001F = 0x0400 ∧ coarseXIncrement 0x041F = 0x0000 ∧ coarseXIncrement 0x0005 = 0x0006 ∧
      yIncrement 0x73A0 = 0x0800 ∧ yIncrement 0x7BA0 = 0x0000 ∧ yIncrement 0x7BE0 = 0x0800 ∧ yIncrement 0x03A0 = 0x13A0 ∧
      yIncrement 0x1000 = 0x2000 := by decide

/-- A machine whose next dot is (s, d). -/
def atDot (s : Fin 262) (d : Fin 341) : State := State.reset.mapPpu fun p => { p with scanline := s, dot := d }

theorem test_V161_V162 :
    (ppuTick (atDot 241 1)).ppu.status = ⟨true, false, false⟩ ∧
      (ppuTick ((atDot 261 1).mapPpu fun p => { p with status := ⟨true, true, true⟩ })).ppu.status = ⟨false, false, false⟩ := by
  decide

theorem test_V163 :
    (ppuTick (atDot 261 340)).ppu.frameCount = 1 ∧ (ppuTick (atDot 261 340)).ppu.scanline = 0 ∧
      (ppuTick (atDot 261 340)).ppu.dot = 0 := by decide

theorem test_V164_V165 :
    (ppuTick ((atDot 241 1).mapPpu fun p => { p with ctrl := 0x80 })).bus.nmiGenerated = true ∧
      (ppuTick (atDot 241 1)).bus.nmiGenerated = false := by decide

theorem test_V167_entry :
    let s := nmiEntry (machine .vector 0x8000 [] [] fun c => { c with pc := 0x8005 })
    s.cpu.pc = 0x9000 ∧ s.cpu.sp = 0xFA ∧ s.bus.ram.read 0x1FD = 0x80 ∧ s.bus.ram.read 0x1FC = 0x05 ∧
      s.bus.ram.read 0x1FB = 0x24 ∧ s.cpu.idleCycles = 7 := by decide

theorem test_V172_V173 :
    let s := State.resetWith { Config.blank with prgRom := [(0x3FFC, 0x34), (0x3FFD, 0x92)] }
    s.cpu.pc = 0x9234 ∧ s.cpu.sp = 0xFD ∧ s.cpu.p = 0x24 ∧ s.cpu.cycles = 7 ∧ s.nestestBoot.cpu.pc = 0xC000 := by decide

/-- R424, first line of program P1. -/
theorem test_trace_line :
    traceText ⟨0x8002, 0xA9, 0x00, 0x0A, 0x00, 0xFD, 0x24, 9⟩ =
      "pc: 0x8002 opcode: 0xA9 A: 0x0, X: 0xA, Y: 0x0, SP: 0xFD, Status: 0x24, Cycles: 9" := by decide

/-- R304: the host's buttons land at a frame boundary and are turned away elsewhere. -/
theorem test_setButtons :
    (setButtons false 0x95 State.reset).map (fun s => s.bus.pad0.buttons) = some 0x95 ∧
      setButtons true 0x95 (atDot 0 1) = none := by decide

/-- A table word is fetched and run by the next step: LDA #$42, then BNE −2. -/
theorem test_withFetchWord :
    (match step (State.reset.withFetchWord 16 0x42A9) with
      | .next t => t.cpu.a == 0x42
      | .fault _ => false
      | .refused _ => false) = true ∧
      decodeTableWord 16 0xFED0 = some (.bne (-2)) ∧ decodeTableWord 8 0x02 = none := ⟨by decide, rfl, rfl⟩

/-! ### Witnesses: what meets the hypotheses of the obligations -/

/-- An instruction answers a next state. -/
def completes (i : Instr) (s : State) : Bool :=
  match exec i s with
  | .next _ => true
  | .fault _ => false
  | .refused _ => false

theorem next_of_completes {i : Instr} {s : State} (h : completes i s = true) : ∃ t, exec i s = .next t := by
  revert h
  rw [completes]
  cases exec i s with
  | next t => exact fun _ => ⟨t, rfl⟩
  | fault f => exact fun h => nomatch h
  | refused r => exact fun h => nomatch h

/-- A machine with v at a given address. -/
def withV (v : Loopy) : State := State.reset.mapPpu fun p => { p with v := v }

theorem witness_DecodeInvertsEncode :
    (Instr.beq (-128)).wellFormed = true ∧ (Instr.beq 127).wellFormed = true ∧ (Instr.ldaAbs 0xFFFF).wellFormed = true := by
  decide

theorem witness_EncodeInvertsDecode :
    decode [0xA9, 0x42, 0x00] = .ok (.ldaImm 0x42, [0x00]) ∧ decode [0x70, 0x80] = .ok (.bvs (-128), []) := ⟨rfl, rfl⟩

theorem witness_IllegalOpcodes :
    (0x02 : Byte).toNat ∈ illegalOpcodes ∧ (0xFF : Byte).toNat ∈ illegalOpcodes ∧ (0x00 : Byte).toNat ∉ illegalOpcodes ∧
      memRead (machine .vector 0x8000 [0x02] [] id).cpu.pc (machine .vector 0x8000 [0x02] [] id) =
        .done 0x02 (machine .vector 0x8000 [0x02] [] id) := by decide

/-- A machine about to take a fetch sub-step, with or without an NMI pending. -/
def aboutToRun (nmi : Bool) : State :=
  (machine .vector 0x8000 [0xA9, 0x42] [] id).mapBus fun b => { b with clockDiv := 2, nmiGenerated := nmi }

theorem witness_StepRunsTheDecodedInstruction :
    let s := aboutToRun false
    s.cpu.runStatus = .running ∧ s.bus.clockDiv.val = 2 ∧ s.cpu.idleCycles = 0 ∧
      decode (0xA9 :: [0x42]) = .ok (.ldaImm 0x42, []) ∧ ReadsBytes [0xA9, 0x42] s.cpu.pc (ppuTick s) (ppuTick s) := by
  exact ⟨by decide, by decide, by decide, rfl, ppuTick (aboutToRun false), by decide, ppuTick (aboutToRun false), by decide, rfl⟩

/-- The same with an NMI pending: the bytes read are the handler's. -/
theorem witness_StepRunsTheDecodedInstruction_nmi :
    (ppuTick (aboutToRun true)).bus.nmiGenerated = true ∧
      decode (0x00 :: []) = .ok (.brk, []) ∧
        ReadsBytes [0x00] (nmiEntry (ppuTick (aboutToRun true))).cpu.pc (nmiEntry (ppuTick (aboutToRun true)))
          (nmiEntry (ppuTick (aboutToRun true))) := by
  exact ⟨by decide, rfl, nmiEntry (ppuTick (aboutToRun true)), by decide, rfl⟩

theorem witness_SystemTick :
    State.reset.cpu.runStatus = .running ∧ State.reset.bus.clockDiv.val ≠ 2 ∧ (aboutToRun false).cpu.runStatus = .running ∧
      (aboutToRun false).bus.clockDiv.val = 2 := by decide

theorem witness_StoppedMachine :
    (State.reset.mapCpu fun c => { c with runStatus := .halted }).cpu.runStatus = .halted ∧
      (State.reset.stopWith (.prgRomWrite 0x8000)).cpu.runStatus = .faulted (.prgRomWrite 0x8000) := by decide

theorem witness_CycleCount :
    (match cpuStep (aboutToRun false), runInstruction (aboutToRun false) with
      | .next u, .next t => decide (t.cpu.runStatus = .running) && u.unfaulted
      | _, _ => false) = true ∧
    (match cpuStep (machine .vector 0x8000 [0x02] [] id) with
      | .next t => !t.unfaulted
      | .fault _ => false
      | .refused _ => false) = true := by decide

theorem witness_InvariantAtReset : ConfigOk Config.blank ∧ ConfigOk (cartridge .halt 0x8000 [0x00, 0x01]) := by decide

theorem witness_StepKeepsInvariant :
    State.reset.Inv ∧ ∃ t, step State.reset = .next t := ⟨by unfold State.Inv; decide, _, rfl⟩

/-- One header, no trainer, one PRG bank and one CHR bank of zeros: the smallest image that loads. -/
def image : List Byte := [0x4E, 0x45, 0x53, 0x1A, 1, 1, 0, 0, 0, 0, 0, 0, 0, 0, 0, 0] ++ List.replicate 24576 0

theorem witness_CartridgeLoad : ∃ cfg, loadCartridge .vector .hardware image = .ok cfg := by
  have hl : image.length = 24592 := by simp only [image, List.length_append, List.length_replicate]; rfl
  have hp : prgSizeOf image = some .kib16 := rfl
  rw [loadCartridge, if_neg (fun h => h rfl), if_neg (by omega), if_neg (by decide), if_neg (by decide), hp]
  simp only
  rw [if_neg (by decide), if_neg]
  · exact ⟨_, rfl⟩
  · have : prgStart image + PrgSize.kib16.bytes + chrSize = 24592 := rfl
    omega

/-- For LoadA, LoadX, LoadY, AddWithCarry, SubtractWithBorrow, Logic, BitTest and Compares: EA readable at the end of the port's range, and not. -/
theorem witness_reads :
    Readable State.reset 0x0000 ∧ Readable State.reset 0xFFFF ∧ Readable (withV 0x3FFF) 0x2007 ∧
      ¬Readable (withV 0x4000) 0x2007 ∧ ¬Readable (withV 0x7FFF) 0x3FFF := by decide

/-- For Stores: EA writable at the ends of its ranges, and each fault. -/
theorem witness_writes :
    Writable State.reset 0x7FFF ∧ ¬Writable State.reset 0x8000 ∧ Writable (withV 0x2000) 0x2007 ∧
      Writable (withV 0x3FFF) 0x2007 ∧ ¬Writable (withV 0x1FFF) 0x2007 ∧ ¬Writable (withV 0x4000) 0x2007 := by decide

/-- For IncDecMemory, ShiftsLeft and ShiftsRight: a read that steps v into the port's range, and one that steps it out. -/
theorem witness_modifies :
    Modifiable State.reset 0x0000 ∧ Modifiable (withV 0x1FFF) 0x2007 ∧ ¬Readable (withV 0x4000) 0x2007 ∧
      (∃ m s1, memRead 0x2007 (withV 0x3FFF) = .done m s1 ∧ ¬Writable s1 0x2007) ∧
      (∃ m s1, memRead 0x8000 State.reset = .done m s1 ∧ ¬Writable s1 0x8000) :=
  ⟨by decide, by decide, by decide, ⟨_, _, rfl, by decide⟩, ⟨_, _, rfl, by decide⟩⟩

/-- For Branches: both values of each flag. -/
theorem witness_Branches :
    (State.reset.cpu.p.getLsbD 0 = false ∧ State.reset.cpu.p.getLsbD 1 = false ∧ State.reset.cpu.p.getLsbD 6 = false ∧
      State.reset.cpu.p.getLsbD 7 = false) ∧
    let c := { State.reset.cpu with p := 0xE7 }
    c.p.getLsbD 0 = true ∧ c.p.getLsbD 1 = true ∧ c.p.getLsbD 6 = true ∧ c.p.getLsbD 7 = true := by decide

/-- For Jump: a pointer in RAM, an unreadable pointer, and a pointer whose second byte alone is unreadable. -/
theorem witness_Jump :
    (Readable State.reset 0x02FF ∧ Readable State.reset 0x0200) ∧ ¬Readable (withV 0x4000) 0x2007 ∧
      (∃ lo s1, memRead 0x2006 (withV 0x4000) = .done lo s1) ∧ ¬Readable (withV 0x4000) 0x2007 :=
  ⟨by decide, by decide, ⟨_, _, rfl⟩, by decide⟩

theorem witness_Subroutines : ∃ t, exec (.jsr 0x9000) State.reset = .next t := ⟨_, rfl⟩

theorem witness_Break :
    (machine .halt 0x8000 [] [] id).cfg.brkMode = .halt ∧ (machine .vector 0x8000 [] [] id).cfg.brkMode = .vector := by decide

theorem witness_NmiEntry :
    ((aboutToRun true).cpu.runStatus = .running ∧ (aboutToRun true).cpu.idleCycles = 0 ∧
      (aboutToRun true).bus.nmiGenerated = true ∧ (aboutToRun false).bus.nmiGenerated = false) ∧
    0 < (charge 1 State.reset).cpu.idleCycles ∧ ∃ t, cpuStep (charge 1 State.reset) = .next t :=
  ⟨by decide, by decide, _, rfl⟩

theorem witness_InterruptsReturn : StatusOk State.reset.cpu.p ∧ State.reset.cfg.brkMode = .vector := by decide

/-- For RegisterAndFlagFrame: NOP runs and writes no register and no flag. -/
theorem witness_RegisterAndFlagFrame :
    (∃ t, exec .nop State.reset = .next t) ∧ writesA .nop = false ∧ writesX .nop = false ∧ writesY .nop = false ∧
      writesSp .nop = false ∧ writesC .nop = false ∧ writesZN .nop = false ∧ writesI .nop = false ∧ writesD .nop = false ∧
      writesV .nop = false ∧ Instr.nop ≠ .plp ∧ Instr.nop ≠ .rti := ⟨⟨_, rfl⟩, by decide⟩

theorem witness_MemoryFrame :
    (∃ t, exec (.staAbs 0x0801) State.reset = .next t) ∧
      ∀ e ∈ storedAddresses (.staAbs 0x0801) State.reset, regionOf State.reset.cfg 0x0000 ≠ regionOf State.reset.cfg e := by
  refine ⟨next_of_completes (by decide), fun e he => ?_⟩
  rw [show storedAddresses (.staAbs 0x0801) State.reset = [0x0801] from rfl, List.mem_singleton] at he
  subst he
  decide

/-- For DeviceFrame: one instruction for each premise. -/
theorem witness_DeviceFrame :
    (∃ t, exec (.staAbs 0x1FFF) State.reset = .next t) ∧
      (∀ e ∈ readAddresses (.staAbs 0x1FFF) State.reset ++ storedAddresses (.staAbs 0x1FFF) State.reset, ¬IsRegister e) ∧
      (∀ e ∈ readAddresses (.staAbs 0x4016) State.reset ++ storedAddresses (.staAbs 0x4016) State.reset, ¬IsPpuRegister e) ∧
      (∀ e ∈ storedAddresses (.staAbs 0x2006) State.reset, ¬PpuRegisterAt 7 e) ∧
      (∀ e ∈ storedAddresses (.staAbs 0x2003) State.reset, ¬PpuRegisterAt 4 e) ∧
      (∀ e ∈ storedAddresses (.staAbs 0x4015) State.reset, e ≠ 0x4014) := by
  have h : ∀ w s, storedAddresses (.staAbs w) s = [w] ∧ readAddresses (.staAbs w) s = [] := fun _ _ => ⟨rfl, rfl⟩
  simp only [(h _ _).1, (h _ _).2, List.nil_append, List.mem_singleton, forall_eq]
  exact ⟨next_of_completes (by decide), by decide⟩

theorem witness_MirrorsAndRom :
    (0x1FFF : Word).toNat < 0x2000 ∧ IsPpuRegister 0x2000 ∧ IsPpuRegister 0x3FFF ∧ 0x8000 ≤ (0x8000 : Word).toNat ∧
      0x8000 ≤ (0xFFFF : Word).toNat ∧ Config.blank.prgSize = .kib16 := by decide

theorem witness_ReadAfterWrite :
    ((0x1FFF : Word).toNat < 0x2000) ∧ (0x4020 ≤ (0x4020 : Word).toNat ∧ (0x4020 : Word).toNat < 0x8000) ∧
      (0x4020 ≤ (0x7FFF : Word).toNat ∧ (0x7FFF : Word).toNat < 0x8000) ∧
      regionOf Config.blank 0x7FFE ≠ regionOf Config.blank 0x7FFF := by decide

theorem witness_OpenBusAndStubs :
    (0x4000 ≤ (0x4015 : Word).toNat ∧ (0x4015 : Word).toNat ≤ 0x4015) ∧
      (0x4018 ≤ (0x401F : Word).toNat ∧ (0x401F : Word).toNat < 0x4020) ∧ PpuRegisterAt 0 0x2000 ∧ PpuRegisterAt 3 0x200B ∧
      PpuRegisterAt 5 0x3FFD ∧ PpuRegisterAt 6 0x3FFE ∧ (0x4000 ≤ (0x4013 : Word).toNat ∧ (0x4013 : Word).toNat ≤ 0x4013) := by
  decide

theorem witness_Controllers :
    (0xFF : Byte).toNat % 2 = 1 ∧ (0xFE : Byte).toNat % 2 = 0 ∧ (0x01 : Byte).toNat % 2 = 1 ∧ (0x00 : Byte).toNat % 2 = 0 := by
  decide

/-- A machine in an idle sub-step, with the given DMA state. -/
def idling (active : Bool) (align count : Nat) (phase : DmaPhase) (page : Byte) : State :=
  (charge 514 State.reset).mapBus fun b => { b with dma := ⟨active, page, count, align, phase, 0⟩ }

theorem witness_IdleSubStep :
    (idling true 0 255 .read 0x02).cpu.runStatus = .running ∧ 0 < (idling true 0 255 .read 0x02).cpu.idleCycles ∧
      (idling false 0 0 .read 0x02).bus.dma.active = false ∧ 0 < (idling true 2 0 .read 0x02).bus.dma.align ∧
      (idling true 0 255 .read 0x02).bus.dma.count < 256 ∧
      (∃ v u, memRead 0x02FF (idling true 0 255 .read 0x02) = .done v u) ∧
      (∃ f u, memRead 0x2007 ((idling true 0 7 .read 0x20).mapPpu fun p => { p with v := 0x4000 }) = .stopped f u) ∧
      (idling true 0 0 .write 0x02).bus.dma.phase = .write :=
  ⟨by decide, by decide, by decide, by decide, by decide, ⟨_, _, rfl⟩, ⟨_, _, rfl⟩, by decide⟩

theorem witness_DmaCopiesThePage :
    State.reset.cpu.runStatus = .running ∧ (∃ s0, memWrite 0x4014 0x02 State.reset = .done () s0) ∧
      ∀ n, n < 256 → (peek State.reset (BitVec.ofNat 16 (256 * (0x02 : Byte).toNat + n))).isSome := by
  refine ⟨by decide, ⟨_, rfl⟩, fun n hn => ?_⟩
  have h : (BitVec.ofNat 16 (256 * (0x02 : Byte).toNat + n)).toNat < 0x2000 := by
    rw [BitVec.toNat_ofNat, show (0x02 : Byte).toNat = 2 from rfl]
    omega
  rw [peek, show regionOf State.reset.cfg _ = .ram _ by rw [regionOf, if_pos h]]
  rfl

theorem witness_PpuRegisterAt :
    PpuRegisterAt 0 0x2000 ∧ PpuRegisterAt 1 0x2001 ∧ PpuRegisterAt 2 0x3FFA ∧ PpuRegisterAt 3 0x2003 ∧ PpuRegisterAt 4 0x2004 ∧
      PpuRegisterAt 5 0x2005 ∧ PpuRegisterAt 6 0x2006 ∧ PpuRegisterAt 7 0x3FFF := by decide

/-- For ScrollAndAddressWrites: both values of the toggle. -/
theorem witness_ScrollAndAddressWrites :
    State.reset.ppu.w = false ∧ (afterWrite 0x2005 0 State.reset).ppu.w = true ∧ (afterWrite 0x2006 0 State.reset).ppu.w = true := by
  decide

/-- For DataPort: v at both ends of each range. -/
theorem witness_DataPort :
    (withV 0x1FFF).ppu.v.toNat < 0x2000 ∧ 0x2000 ≤ (withV 0x2000).ppu.v.toNat ∧ (withV 0x3EFF).ppu.v.toNat < 0x3F00 ∧
      0x3F00 ≤ (withV 0x3F00).ppu.v.toNat ∧ (withV 0x3FFF).ppu.v.toNat < 0x4000 ∧ 0x4000 ≤ (withV 0x4000).ppu.v.toNat := by decide

/-- For PpuAddressSpace: both ends of each range. -/
theorem witness_PpuAddressSpace :
    (0x1FFF : BitVec 14).toNat < 0x2000 ∧ 0x2000 ≤ (0x2000 : BitVec 14).toNat ∧ (0x3EFF : BitVec 14).toNat < 0x3F00 ∧
      0x3000 ≤ (0x3000 : BitVec 14).toNat ∧ 0x3F00 ≤ (0x3F00 : BitVec 14).toNat := by decide

theorem witness_VBlankAndNmi :
    ((atDot 241 1).ppu.scanline.val = 241 ∧ (atDot 241 1).ppu.dot.val = 1) ∧
      ((atDot 261 1).ppu.scanline.val = 261 ∧ (atDot 261 1).ppu.dot.val = 1) ∧
      ¬((atDot 241 0).ppu.scanline.val = 241 ∧ (atDot 241 0).ppu.dot.val = 1) ∧
      ¬((atDot 241 0).ppu.scanline.val = 261 ∧ (atDot 241 0).ppu.dot.val = 1) := by decide

/-- The PPU with both layers on. -/
def rendering : Ppu := { State.reset.ppu with mask := 0x1E }

/-- For RenderingFrame and PixelOutput: rendering on by either mask bit or by the gating, and off. -/
theorem witness_RenderingOn :
    RenderingOn Config.blank { rendering with mask := 0x08 } ∧ RenderingOn Config.blank { rendering with mask := 0x10 } ∧
      ¬RenderingOn Config.blank { rendering with mask := 0xE7 } ∧
      RenderingOn { Config.blank with maskGating := .ignored } State.reset.ppu := by decide

/-- For RenderingFrame: a dot that works and one that does not, and each case of line and dot. -/
theorem witness_RenderingFrame :
    ((239 ≤ 239 ∨ 239 = 261) ∧ RenderingOn Config.blank rendering) ∧ ((261 ≤ 239 ∨ 261 = 261) ∧ RenderingOn Config.blank rendering) ∧
      ¬((240 ≤ 239 ∨ 240 = 261) ∧ RenderingOn Config.blank rendering) ∧
      FetchesAt 8 ∧ FetchesAt 256 ∧ FetchesAt 336 ∧ ¬FetchesAt 0 ∧ ¬FetchesAt 264 ∧ ¬FetchesAt 320 := by decide

/-- For Background: a shown and a hidden layer, and both gatings. -/
theorem witness_Background :
    Config.blank.maskGating = .hardware ∧ ({ Config.blank with maskGating := .ignored } : Config).maskGating = .ignored ∧
      showBackground Config.blank rendering 0 = true ∧ showBackground Config.blank { rendering with mask := 0x18 } 7 = false ∧
      showBackground Config.blank { rendering with mask := 0x18 } 8 = true := by decide

/-- For SpriteEvaluation: all 64 sprites in range, and none. -/
theorem witness_SpriteEvaluation :
    ((List.range 64).Pairwise (· < ·) ∧ ∀ i, i ∈ List.range 64 ↔ i < 64 ∧ OnLine State.reset.ppu 7 i) ∧
      (([] : List Nat).Pairwise (· < ·) ∧ ∀ i, i ∈ ([] : List Nat) ↔ i < 64 ∧ OnLine State.reset.ppu 8 i) := by
  refine ⟨⟨List.pairwise_lt_range, fun i => ?_⟩, List.Pairwise.nil, fun i => ?_⟩
  · rw [List.mem_range]
    exact ⟨fun h => ⟨h, Nat.zero_le 7, show 7 < 0 + 8 by decide⟩, fun h => h.1⟩
  · exact ⟨fun h => absurd h List.not_mem_nil, fun h => absurd (show 8 < 0 + 8 from h.2.2) (by decide)⟩

/-- For SpriteSlots: eight sprites, on the first and the last line of their range. -/
theorem witness_SpriteSlots :
    let p := { State.reset.ppu with secCount := 8 }
    p.secCount ≤ 8 ∧
      (∀ k, k < p.secCount → (p.secOam.read (4 * k)).toNat ≤ 0 ∧
        0 < (p.secOam.read (4 * k)).toNat + (if p.ctrl.getLsbD 5 then 16 else 8)) ∧
      ∀ k, k < p.secCount → (p.secOam.read (4 * k)).toNat ≤ 7 ∧
        7 < (p.secOam.read (4 * k)).toNat + (if p.ctrl.getLsbD 5 then 16 else 8) := by decide

end Sys2Proof.Tests
end

section
/-!
SUPPORT. The 151 instructions sorted by operand class (R139): what an instruction reads, stores and writes is then a function
of its class, an operation and a mode, and a property of `exec` needs one case for each class.
-/

namespace Sys2Proof.Proofs

open Sys2Proof.Machine Sys2Proof.Claims

/-! ### Registers, modes and operations -/

/-- A CPU register of R11 to R14. -/
inductive Reg where
  | a
  | x
  | y
  | sp

/-- The register's value. -/
def Reg.get : Reg → Cpu → Byte
  | .a, c => c.a
  | .x, c => c.x
  | .y, c => c.y
  | .sp, c => c.sp

/-- An addressing mode that gives an effective address, with its operand (R143 to R148, R150, R151). -/
inductive Mode where
  | zp (zp : Byte)
  | zpX (zp : Byte)
  | zpY (zp : Byte)
  | abs (addr : Word)
  | absX (addr : Word)
  | absY (addr : Word)
  | indX (zp : Byte)
  | indY (zp : Byte)

/-- The model's effective address and page cross. -/
def Mode.operand : Mode → State → Operand
  | .zp b, _ => modeZp b
  | .zpX b, s => modeZpX b s
  | .zpY b, s => modeZpY b s
  | .abs w, _ => modeAbs w
  | .absX w, s => modeAbsX w s
  | .absY w, s => modeAbsY w s
  | .indX b, s => modeIndX b s
  | .indY b, s => modeIndY b s

/-- The effective address in the words of the statements, which are arithmetic. -/
def Mode.address : Mode → State → Word
  | .zp b, _ => zeroPage b
  | .zpX b, s => zeroPageIndexed b s.cpu.x
  | .zpY b, s => zeroPageIndexed b s.cpu.y
  | .abs w, _ => w
  | .absX w, s => indexedBy w s.cpu.x
  | .absY w, s => indexedBy w s.cpu.y
  | .indX b, s => pointerAt s (b.toNat + s.cpu.x.toNat)
  | .indY b, s => indexedBy (pointerAt s b.toNat) s.cpu.y

/-- The bytes of an instruction in this mode (R111). -/
def Mode.length : Mode → Word
  | .zp _ | .zpX _ | .zpY _ | .indX _ | .indY _ => 2
  | .abs _ | .absX _ | .absY _ => 3

/-- The base cycles of a read-class row in this mode (R113). -/
def Mode.readCycles : Mode → Nat
  | .zp _ => 3
  | .zpX _ | .zpY _ | .abs _ | .absX _ | .absY _ => 4
  | .indX _ => 6
  | .indY _ => 5

/-- The page-cross bit of a read-class row in this mode (R113, R136). -/
def Mode.pageCross : Mode → Bool
  | .absX _ | .absY _ | .indY _ => true
  | .zp _ | .zpX _ | .zpY _ | .abs _ | .indX _ => false

/-- The base cycles of a write-class row in this mode (R113). -/
def Mode.writeCycles : Mode → Nat
  | .zp _ => 3
  | .zpX _ | .zpY _ | .abs _ => 4
  | .absX _ | .absY _ => 5
  | .indX _ | .indY _ => 6

/-- The base cycles of a read-modify-write row in this mode (R113). No such row has an indirect mode. -/
def Mode.modifyCycles : Mode → Nat
  | .zp _ => 5
  | .zpX _ | .zpY _ | .abs _ => 6
  | .absX _ | .absY _ | .indX _ | .indY _ => 7

/-- The operations of the read class. -/
inductive ReadOp where
  | lda
  | ldx
  | ldy
  | adc
  | sbc
  | and
  | ora
  | eor
  | bit
  | cmp
  | cpx
  | cpy

/-- What the operation does with M. -/
def ReadOp.apply : ReadOp → Byte → State → State
  | .lda => loadA
  | .ldx => loadX
  | .ldy => loadY
  | .adc => opAdc
  | .sbc => opSbc
  | .and => opAnd
  | .ora => opOra
  | .eor => opEor
  | .bit => opBit
  | .cmp => opCmp
  | .cpx => opCpx
  | .cpy => opCpy

/-- The registers the operation writes. -/
def ReadOp.writes : ReadOp → Reg → Bool
  | .lda, .a | .adc, .a | .sbc, .a | .and, .a | .ora, .a | .eor, .a => true
  | .ldx, .x => true
  | .ldy, .y => true
  | _, _ => false

/-- The bits of P the operation writes. -/
def ReadOp.bits : ReadOp → List Nat
  | .lda | .ldx | .ldy | .and | .ora | .eor => [1, 7]
  | .adc | .sbc => [0, 1, 6, 7]
  | .bit => [1, 6, 7]
  | .cmp | .cpx | .cpy => [0, 1, 7]

/-- The four shifts and rotates. -/
inductive ShiftOp where
  | asl
  | lsr
  | rol
  | ror

/-- The bit shifted out and the result, from M and C. -/
def ShiftOp.shift : ShiftOp → Byte → Bool → Bool × Byte
  | .asl => fun m _ => shiftLeft m
  | .lsr => fun m _ => shiftRight m
  | .rol => rotateLeft
  | .ror => rotateRight

/-- The operations of the read-modify-write class. -/
inductive ModifyOp where
  /-- INC and DEC. -/
  | step (delta : Byte)
  | shift (op : ShiftOp)

/-- The byte that the operation stores. -/
def ModifyOp.result : ModifyOp → Byte → State → Byte
  | .step delta => fun m _ => m + delta
  | .shift op => fun m s => (op.shift m (getFlag .carry s.cpu.p)).2

/-- P before the store. -/
def ModifyOp.before : ModifyOp → Byte → Byte → Byte
  | .step _ => fun _ p => p
  | .shift op => fun m p => setFlag .carry (op.shift m (getFlag .carry p)).1 p

/-- The bits of P the operation writes. -/
def ModifyOp.bits : ModifyOp → List Nat
  | .step _ => [1, 7]
  | .shift _ => [0, 1, 7]

/-- The operations with no memory access, the stack apart. -/
inductive RegisterOp where
  /-- The transfers and the register steps: a register takes a value of the CPU group, as a load does. -/
  | load (op : ReadOp) (value : Cpu → Byte)
  | txs
  | shift (op : ShiftOp)
  | flag (f : Flag) (b : Bool)
  | nop

/-- What the operation does. -/
def RegisterOp.apply : RegisterOp → State → State
  | .load op value => fun s => op.apply (value s.cpu) s
  | .txs => fun s => s.mapCpu fun c => { c with sp := c.x }
  | .shift op => shiftAccumulator op.shift
  | .flag f b => writeFlag f b
  | .nop => fun s => s

/-- The registers the operation writes. -/
def RegisterOp.writes : RegisterOp → Reg → Bool
  | .load op _, r => op.writes r
  | .txs, .sp => true
  | .shift _, .a => true
  | _, _ => false

/-- The bits of P the operation writes. -/
def RegisterOp.bits : RegisterOp → List Nat
  | .load op _ => op.bits
  | .txs => []
  | .shift _ => [0, 1, 7]
  | .flag f _ => [flagBit f]
  | .nop => []

/-! ### The classes -/

/-- An instruction by its operand class (R139); the last ten are the jumps, the stack and the interrupt instructions. -/
inductive InstrClass where
  | immediate (op : ReadOp) (m : Byte)
  | read (op : ReadOp) (mode : Mode)
  | write (r : Reg) (mode : Mode)
  | modify (op : ModifyOp) (mode : Mode)
  | register (op : RegisterOp)
  | branch (f : Flag) (want : Bool) (disp : Int)
  | jump (addr : Word)
  | jumpIndirect (ptr : Word)
  | jsr (addr : Word)
  | rts
  | pha
  | php
  | pla
  | plp
  | brk
  | rti

/-- The meaning of a class: the model's shape of the class with its operation and mode. -/
def InstrClass.run : InstrClass → State → Host.Outcome State Fault Refusal
  | .immediate op m, s => runImmediate m op.apply s
  | .read op mode, s => runRead mode.length mode.readCycles mode.pageCross (mode.operand s) op.apply s
  | .write r mode, s => runWrite mode.length mode.writeCycles (mode.operand s) (r.get s.cpu) s
  | .modify op mode, s => runModify mode.length mode.modifyCycles (mode.operand s) op.result op.before s
  | .register op, s => runRegister op.apply s
  | .branch f want disp, s => runBranch (cond want (getFlag f s.cpu.p) (!getFlag f s.cpu.p)) disp s
  | .jump addr, s => execJmpAbs addr s
  | .jumpIndirect ptr, s => execJmpInd ptr s
  | .jsr addr, s => execJsr addr s
  | .rts, s => execRts s
  | .pha, s => execPha s
  | .php, s => execPhp s
  | .pla, s => execPla s
  | .plp, s => execPlp s
  | .brk, s => execBrk s
  | .rti, s => execRti s

/-- The addresses read that may be registers (R139, R149). -/
def InstrClass.reads : InstrClass → State → List Word
  | .read _ mode, s => [mode.address s]
  | .modify _ mode, s => [mode.address s]
  | .jumpIndirect ptr, _ => [ptr, nextInPage ptr]
  | _, _ => []

/-- The address of the stack slot that the (n+1)-th push takes (R137). -/
def stackSlot (s : State) (n : Nat) : Word := BitVec.ofNat 16 (stackCell s.cpu.sp n)

/-- The addresses stored to (R137, R139). -/
def InstrClass.stores : InstrClass → State → List Word
  | .write _ mode, s => [mode.address s]
  | .modify _ mode, s => [mode.address s]
  | .pha, s | .php, s => [stackSlot s 0]
  | .jsr _, s => [stackSlot s 0, stackSlot s 1]
  | .brk, s => [stackSlot s 0, stackSlot s 1, stackSlot s 2]
  | _, _ => []

/-- The registers written (R11 to R14). -/
def InstrClass.writes : InstrClass → Reg → Bool
  | .immediate op _, r | .read op _, r => op.writes r
  | .register op, r => op.writes r
  | .pla, .a => true
  | .jsr _, .sp | .rts, .sp | .pha, .sp | .php, .sp | .pla, .sp | .plp, .sp | .brk, .sp | .rti, .sp => true
  | _, _ => false

/-- The bits of P written (R17). -/
def InstrClass.bits : InstrClass → List Nat
  | .immediate op _ | .read op _ => op.bits
  | .modify op _ => op.bits
  | .register op => op.bits
  | .pla => [1, 7]
  | .plp | .rti => [0, 1, 2, 3, 4, 5, 6, 7]
  | .brk => [2]
  | _ => []

/-- The class of every instruction. -/
def classOf : Instr → InstrClass
  | .ldaImm m => .immediate .lda m
  | .ldaZp zp => .read .lda (.zp zp)
  | .ldaZpX zp => .read .lda (.zpX zp)
  | .ldaAbs addr => .read .lda (.abs addr)
  | .ldaAbsX addr => .read .lda (.absX addr)
  | .ldaAbsY addr => .read .lda (.absY addr)
  | .ldaIndX zp => .read .lda (.indX zp)
  | .ldaIndY zp => .read .lda (.indY zp)
  | .ldxImm m => .immediate .ldx m
  | .ldxZp zp => .read .ldx (.zp zp)
  | .ldxZpY zp => .read .ldx (.zpY zp)
  | .ldxAbs addr => .read .ldx (.abs addr)
  | .ldxAbsY addr => .read .ldx (.absY addr)
  | .ldyImm m => .immediate .ldy m
  | .ldyZp zp => .read .ldy (.zp zp)
  | .ldyZpX zp => .read .ldy (.zpX zp)
  | .ldyAbs addr => .read .ldy (.abs addr)
  | .ldyAbsX addr => .read .ldy (.absX addr)
  | .staZp zp => .write .a (.zp zp)
  | .staZpX zp => .write .a (.zpX zp)
  | .staAbs addr => .write .a (.abs addr)
  | .staAbsX addr => .write .a (.absX addr)
  | .staAbsY addr => .write .a (.absY addr)
  | .staIndX zp => .write .a (.indX zp)
  | .staIndY zp => .write .a (.indY zp)
  | .stxZp zp => .write .x (.zp zp)
  | .stxZpY zp => .write .x (.zpY zp)
  | .stxAbs addr => .write .x (.abs addr)
  | .styZp zp => .write .y (.zp zp)
  | .styZpX zp => .write .y (.zpX zp)
  | .styAbs addr => .write .y (.abs addr)
  | .tax => .register (.load .ldx (Reg.get .a))
  | .tay => .register (.load .ldy (Reg.get .a))
  | .tsx => .register (.load .ldx (Reg.get .sp))
  | .txa => .register (.load .lda (Reg.get .x))
  | .txs => .register .txs
  | .tya => .register (.load .lda (Reg.get .y))
  | .pha => .pha
  | .php => .php
  | .pla => .pla
  | .plp => .plp
  | .adcImm m => .immediate .adc m
  | .adcZp zp => .read .adc (.zp zp)
  | .adcZpX zp => .read .adc (.zpX zp)
  | .adcAbs addr => .read .adc (.abs addr)
  | .adcAbsX addr => .read .adc (.absX addr)
  | .adcAbsY addr => .read .adc (.absY addr)
  | .adcIndX zp => .read .adc (.indX zp)
  | .adcIndY zp => .read .adc (.indY zp)
  | .sbcImm m => .immediate .sbc m
  | .sbcZp zp => .read .sbc (.zp zp)
  | .sbcZpX zp => .read .sbc (.zpX zp)
  | .sbcAbs addr => .read .sbc (.abs addr)
  | .sbcAbsX addr => .read .sbc (.absX addr)
  | .sbcAbsY addr => .read .sbc (.absY addr)
  | .sbcIndX zp => .read .sbc (.indX zp)
  | .sbcIndY zp => .read .sbc (.indY zp)
  | .andImm m => .immediate .and m
  | .andZp zp => .read .and (.zp zp)
  | .andZpX zp => .read .and (.zpX zp)
  | .andAbs addr => .read .and (.abs addr)
  | .andAbsX addr => .read .and (.absX addr)
  | .andAbsY addr => .read .and (.absY addr)
  | .andIndX zp => .read .and (.indX zp)
  | .andIndY zp => .read .and (.indY zp)
  | .oraImm m => .immediate .ora m
  | .oraZp zp => .read .ora (.zp zp)
  | .oraZpX zp => .read .ora (.zpX zp)
  | .oraAbs addr => .read .ora (.abs addr)
  | .oraAbsX addr => .read .ora (.absX addr)
  | .oraAbsY addr => .read .ora (.absY addr)
  | .oraIndX zp => .read .ora (.indX zp)
  | .oraIndY zp => .read .ora (.indY zp)
  | .eorImm m => .immediate .eor m
  | .eorZp zp => .read .eor (.zp zp)
  | .eorZpX zp => .read .eor (.zpX zp)
  | .eorAbs addr => .read .eor (.abs addr)
  | .eorAbsX addr => .read .eor (.absX addr)
  | .eorAbsY addr => .read .eor (.absY addr)
  | .eorIndX zp => .read .eor (.indX zp)
  | .eorIndY zp => .read .eor (.indY zp)
  | .bitZp zp => .read .bit (.zp zp)
  | .bitAbs addr => .read .bit (.abs addr)
  | .incZp zp => .modify (.step 1) (.zp zp)
  | .incZpX zp => .modify (.step 1) (.zpX zp)
  | .incAbs addr => .modify (.step 1) (.abs addr)
  | .incAbsX addr => .modify (.step 1) (.absX addr)
  | .decZp zp => .modify (.step (-1)) (.zp zp)
  | .decZpX zp => .modify (.step (-1)) (.zpX zp)
  | .decAbs addr => .modify (.step (-1)) (.abs addr)
  | .decAbsX addr => .modify (.step (-1)) (.absX addr)
  | .inx => .register (.load .ldx fun c => c.x + 1)
  | .iny => .register (.load .ldy fun c => c.y + 1)
  | .dex => .register (.load .ldx fun c => c.x - 1)
  | .dey => .register (.load .ldy fun c => c.y - 1)
  | .aslAcc => .register (.shift .asl)
  | .aslZp zp => .modify (.shift .asl) (.zp zp)
  | .aslZpX zp => .modify (.shift .asl) (.zpX zp)
  | .aslAbs addr => .modify (.shift .asl) (.abs addr)
  | .aslAbsX addr => .modify (.shift .asl) (.absX addr)
  | .lsrAcc => .register (.shift .lsr)
  | .lsrZp zp => .modify (.shift .lsr) (.zp zp)
  | .lsrZpX zp => .modify (.shift .lsr) (.zpX zp)
  | .lsrAbs addr => .modify (.shift .lsr) (.abs addr)
  | .lsrAbsX addr => .modify (.shift .lsr) (.absX addr)
  | .rolAcc => .register (.shift .rol)
  | .rolZp zp => .modify (.shift .rol) (.zp zp)
  | .rolZpX zp => .modify (.shift .rol) (.zpX zp)
  | .rolAbs addr => .modify (.shift .rol) (.abs addr)
  | .rolAbsX addr => .modify (.shift .rol) (.absX addr)
  | .rorAcc => .register (.shift .ror)
  | .rorZp zp => .modify (.shift .ror) (.zp zp)
  | .rorZpX zp => .modify (.shift .ror) (.zpX zp)
  | .rorAbs addr => .modify (.shift .ror) (.abs addr)
  | .rorAbsX addr => .modify (.shift .ror) (.absX addr)
  | .cmpImm m => .immediate .cmp m
  | .cmpZp zp => .read .cmp (.zp zp)
  | .cmpZpX zp => .read .cmp (.zpX zp)
  | .cmpAbs addr => .read .cmp (.abs addr)
  | .cmpAbsX addr => .read .cmp (.absX addr)
  | .cmpAbsY addr => .read .cmp (.absY addr)
  | .cmpIndX zp => .read .cmp (.indX zp)
  | .cmpIndY zp => .read .cmp (.indY zp)
  | .cpxImm m => .immediate .cpx m
  | .cpxZp zp => .read .cpx (.zp zp)
  | .cpxAbs addr => .read .cpx (.abs addr)
  | .cpyImm m => .immediate .cpy m
  | .cpyZp zp => .read .cpy (.zp zp)
  | .cpyAbs addr => .read .cpy (.abs addr)
  | .bcc disp => .branch .carry false disp
  | .bcs disp => .branch .carry true disp
  | .beq disp => .branch .zero true disp
  | .bmi disp => .branch .negative true disp
  | .bne disp => .branch .zero false disp
  | .bpl disp => .branch .negative false disp
  | .bvc disp => .branch .overflow false disp
  | .bvs disp => .branch .overflow true disp
  | .jmpAbs addr => .jump addr
  | .jmpInd ptr => .jumpIndirect ptr
  | .jsr addr => .jsr addr
  | .rts => .rts
  | .clc => .register (.flag .carry false)
  | .cld => .register (.flag .decimal false)
  | .cli => .register (.flag .interruptDisable false)
  | .clv => .register (.flag .overflow false)
  | .sec => .register (.flag .carry true)
  | .sed => .register (.flag .decimal true)
  | .sei => .register (.flag .interruptDisable true)
  | .nop => .register .nop
  | .brk => .brk
  | .rti => .rti

/-! ### The table agrees with the model and with the statements -/

/-- `exec` of an instruction is the meaning of its class. -/
theorem exec_eq_run (i : Instr) (s : State) : exec i s = (classOf i).run s := by
  cases i <;> rfl

theorem readAddresses_eq (i : Instr) (s : State) : readAddresses i s = (classOf i).reads s := by
  cases i <;> rfl

theorem storedAddresses_eq (i : Instr) (s : State) : storedAddresses i s = (classOf i).stores s := by
  cases i <;> rfl

theorem writesA_eq (i : Instr) : writesA i = (classOf i).writes .a := by
  cases i <;> rfl

theorem writesX_eq (i : Instr) : writesX i = (classOf i).writes .x := by
  cases i <;> rfl

theorem writesY_eq (i : Instr) : writesY i = (classOf i).writes .y := by
  cases i <;> rfl

theorem writesSp_eq (i : Instr) : writesSp i = (classOf i).writes .sp := by
  cases i <;> rfl

theorem writesC_eq (i : Instr) : writesC i = (classOf i).bits.contains 0 := by
  cases i <;> rfl

theorem writesZN_eq (i : Instr) :
    writesZN i = (classOf i).bits.contains 1 ∧ writesZN i = (classOf i).bits.contains 7 := by
  cases i <;> exact ⟨rfl, rfl⟩

theorem writesI_eq (i : Instr) : writesI i = (classOf i).bits.contains 2 := by
  cases i <;> rfl

theorem writesD_eq (i : Instr) : writesD i = (classOf i).bits.contains 3 := by
  cases i <;> rfl

theorem writesV_eq (i : Instr) : writesV i = (classOf i).bits.contains 6 := by
  cases i <;> rfl

theorem classOf_eq_brk {i : Instr} (h : classOf i = .brk) : i = .brk := by
  cases i <;> cases h
  rfl

theorem classOf_eq_plp {i : Instr} (h : classOf i = .plp) : i = .plp := by
  cases i <;> cases h
  rfl

theorem classOf_eq_rti {i : Instr} (h : classOf i = .rti) : i = .rti := by
  cases i <;> cases h
  rfl

/-! ### Bits 4 and 5 of P -/

theorem ReadOp.bits_ne_45 (op : ReadOp) : 4 ∉ op.bits ∧ 5 ∉ op.bits := by
  cases op <;> simp [ReadOp.bits]

theorem ModifyOp.bits_ne_45 (op : ModifyOp) : 4 ∉ op.bits ∧ 5 ∉ op.bits := by
  cases op <;> simp [ModifyOp.bits]

theorem RegisterOp.bits_ne_45 (op : RegisterOp) : 4 ∉ op.bits ∧ 5 ∉ op.bits := by
  cases op with
  | load op value => exact op.bits_ne_45
  | flag f b => cases f <;> simp [RegisterOp.bits, flagBit]
  | _ => simp [RegisterOp.bits]

/-- Only PLP and RTI write bits 4 and 5 of P (R16, R18). -/
theorem InstrClass.bits_ne_45 (c : InstrClass) (hp : c ≠ .plp) (hr : c ≠ .rti) : 4 ∉ c.bits ∧ 5 ∉ c.bits := by
  cases c with
  | immediate op m => exact op.bits_ne_45
  | read op mode => exact op.bits_ne_45
  | modify op mode => exact op.bits_ne_45
  | register op => exact op.bits_ne_45
  | plp => exact absurd rfl hp
  | rti => exact absurd rfl hr
  | _ => simp [InstrClass.bits]

/-! ### The effective addresses -/

theorem zeroPageAddress_eq (b : Byte) : zeroPageAddress b = zeroPage b := by
  apply BitVec.eq_of_toNat_eq
  rw [zeroPageAddress, zeroPage, BitVec.toNat_setWidth, BitVec.toNat_ofNat]

theorem zeroPageAddress_add (b index : Byte) : zeroPageAddress (b + index) = zeroPageIndexed b index := by
  apply BitVec.eq_of_toNat_eq
  rw [zeroPageAddress, zeroPageIndexed, BitVec.toNat_setWidth, BitVec.toNat_ofNat, BitVec.toNat_add]

theorem indexed_addr (base : Word) (index : Byte) : (indexed base index).addr = indexedBy base index := by
  apply BitVec.eq_of_toNat_eq
  have := index.isLt
  simp only [indexed, indexedBy, BitVec.toNat_add, BitVec.toNat_setWidth, BitVec.toNat_ofNat]
  omega

/-- A zero-page pointer whose low byte's address is `n` modulo 256. -/
theorem zeroPageWord_eq (b : Byte) (s : State) (n : Nat) (h : b.toNat = n % 256) : zeroPageWord b s = pointerAt s n := by
  have hnext : (b + 1).toNat = (n + 1) % 256 := by
    rw [BitVec.toNat_add, h]
    simp
  apply BitVec.eq_of_toNat_eq
  have hlo := (s.bus.ram.read (n % 256)).isLt
  have hhi := (s.bus.ram.read ((n + 1) % 256)).isLt
  rw [zeroPageWord, wordOf_toNat, pointerAt, BitVec.toNat_ofNat, h, hnext]
  omega

/-- The model's effective address is the one of the statements. -/
@[simp] theorem Mode.operand_addr (mode : Mode) (s : State) : (mode.operand s).addr = mode.address s := by
  cases mode with
  | zp b => exact zeroPageAddress_eq b
  | zpX b => exact zeroPageAddress_add b s.cpu.x
  | zpY b => exact zeroPageAddress_add b s.cpu.y
  | abs w => rfl
  | absX w => exact indexed_addr w s.cpu.x
  | absY w => exact indexed_addr w s.cpu.y
  | indX b => exact zeroPageWord_eq _ s _ (BitVec.toNat_add b s.cpu.x)
  | indY b =>
    rw [Mode.operand, modeIndY, indexed_addr, zeroPageWord_eq b s b.toNat (Nat.mod_eq_of_lt b.isLt).symm]
    rfl

end Sys2Proof.Proofs
end

section
/-!
SUPPORT. An instruction is a sequence of bus reads, bus writes and changes of the CPU group, inside a footprint: `Touches`.
What every such sequence keeps is proved here once, by induction on the sequence.
-/

namespace Sys2Proof.Proofs

open Sys2Proof.Machine Sys2Proof.Claims

/-! ### The steps of a sequence -/

/-- What an instruction may read and store, and the registers and bits of P it may change. -/
structure Footprint where
  reads : List Word
  stores : List Word
  writes : Reg → Bool
  bits : List Nat

/-- The footprint of a class at the state where the instruction begins. -/
def InstrClass.footprint (c : InstrClass) (s : State) : Footprint where
  reads := c.reads s
  stores := c.stores s
  writes := c.writes
  bits := c.bits

/-- A change of P: only the listed bits, and bits 4 and 5 stay as R16 has them. -/
structure FlagChange (bits : List Nat) (p q : Byte) : Prop where
  flags : KeepsBits bits p q
  status : StatusOk p → StatusOk q

/-- A change of the CPU group: only the given registers and bits of P, and no cycle is taken back. -/
structure CpuKeeps (writes : Reg → Bool) (bits : List Nat) (c d : Cpu) : Prop where
  regs : ∀ r, writes r = false → r.get d = r.get c
  flag : FlagChange bits c.p d.p
  idle : c.idleCycles ≤ d.idleCycles
  cycles : d.cycles = c.cycles

/-- One step of an instruction inside its footprint. -/
inductive Touch (F : Footprint) : State → State → Prop
  | read {s t : State} {a : Word} {v : Byte} (ha : a ∈ F.reads) (h : memRead a s = .done v t) : Touch F s t
  | write {s t : State} {a : Word} {d : Byte} (ha : a ∈ F.stores) (h : memWrite a d s = .done () t) : Touch F s t
  | cpu {s t : State} (h : t = { s with cpu := t.cpu }) (hk : CpuKeeps F.writes F.bits s.cpu t.cpu) : Touch F s t

/-- Any number of such steps. -/
abbrev Touches (F : Footprint) : State → State → Prop := Relation.ReflTransGen (Touch F)

variable {F : Footprint} {s t u : State}

/-- What every step keeps, a sequence keeps. -/
theorem Touches.kept {α : Type} (f : State → α) (hstep : ∀ {s t}, Touch F s t → f t = f s) (h : Touches F s t) :
    f t = f s := by
  induction h with
  | refl => rfl
  | tail _ hlast ih => exact (hstep hlast).trans ih

/-! ### The CPU group -/

theorem FlagChange.refl (bits : List Nat) (p : Byte) : FlagChange bits p p := ⟨fun _ _ _ => rfl, id⟩

theorem FlagChange.trans {bits : List Nat} {p q r : Byte} (h : FlagChange bits p q) (h' : FlagChange bits q r) :
    FlagChange bits p r where
  flags k hk hb := (h'.flags k hk hb).trans (h.flags k hk hb)
  status := h'.status ∘ h.status

theorem CpuKeeps.refl (writes : Reg → Bool) (bits : List Nat) (c : Cpu) : CpuKeeps writes bits c c :=
  ⟨fun _ _ => rfl, FlagChange.refl _ _, Nat.le_refl _, rfl⟩

theorem CpuKeeps.trans {writes : Reg → Bool} {bits : List Nat} {c d e : Cpu} (h : CpuKeeps writes bits c d)
    (h' : CpuKeeps writes bits d e) : CpuKeeps writes bits c e where
  regs r hr := (h'.regs r hr).trans (h.regs r hr)
  flag := h.flag.trans h'.flag
  idle := Nat.le_trans h.idle h'.idle
  cycles := h'.cycles.trans h.cycles

/-- A bus write adds to the cycles owed, if it changes the CPU group at all (R306). -/
theorem memWrite_cpuKeeps (writes : Reg → Bool) (bits : List Nat) {a : Word} {d : Byte} (h : memWrite a d s = .done () t) :
    CpuKeeps writes bits s.cpu t.cpu := by
  by_cases ha : a = 0x4014
  · rw [memWrite, (regionOf_oamDma s.cfg a).2 ha] at h
    cases h
    exact ⟨fun r _ => by cases r <;> rfl, FlagChange.refl _ _, Nat.le_add_right _ _, rfl⟩
  · have hs := memWrite_spec a d s
    rw [h] at hs
    obtain ⟨-, -, hcpu⟩ := hs
    rw [hcpu ha]
    exact CpuKeeps.refl _ _ _

theorem Touch.cpuKeeps (h : Touch F s t) : CpuKeeps F.writes F.bits s.cpu t.cpu := by
  cases h with
  | read _ h => rw [(memRead_frame h).cpu]; exact CpuKeeps.refl _ _ _
  | write _ h => exact memWrite_cpuKeeps _ _ h
  | cpu _ hk => exact hk

theorem Touches.cpuKeeps (h : Touches F s t) : CpuKeeps F.writes F.bits s.cpu t.cpu := by
  induction h with
  | refl => exact CpuKeeps.refl _ _ _
  | tail _ hlast ih => exact ih.trans hlast.cpuKeeps

/-! ### The bus and the PPU -/

/-- What no access changes: the configuration, the trace, and all of the bus and the PPU but what the two access frames of the
model's laws name. -/
structure AccessFrame (s t : State) : Prop where
  cfg : t.cfg = s.cfg
  trace : t.trace = s.trace
  bus : t.bus = { s.bus with
    ram := t.bus.ram
    scratch := t.bus.scratch
    prgRam := t.bus.prgRam
    pad0 := { s.bus.pad0 with cursor := t.bus.pad0.cursor }
    pad1 := { s.bus.pad1 with cursor := t.bus.pad1.cursor }
    strobe := t.bus.strobe
    dma := t.bus.dma
    openBusDraws := t.bus.openBusDraws }
  ppu : t.ppu = { s.ppu with
    ctrl := t.ppu.ctrl
    mask := t.ppu.mask
    status := { s.ppu.status with vblank := t.ppu.status.vblank }
    oamAddr := t.ppu.oamAddr
    readBuffer := t.ppu.readBuffer
    vram := t.ppu.vram
    palette := t.ppu.palette
    oam := t.ppu.oam
    v := t.ppu.v
    t := t.ppu.t
    fineX := t.ppu.fineX
    w := t.ppu.w }

theorem AccessFrame.refl (s : State) : AccessFrame s s := ⟨rfl, rfl, rfl, rfl⟩

theorem AccessFrame.trans (h : AccessFrame s t) (h' : AccessFrame t u) : AccessFrame s u where
  cfg := h'.cfg.trans h.cfg
  trace := h'.trace.trans h.trace
  bus := by rw [h'.bus, h.bus]
  ppu := by rw [h'.ppu, h.ppu]

theorem AccessFrame.of_read (h : ReadFrame s t) : AccessFrame s t where
  cfg := h.cfg
  trace := h.trace
  bus := by rw [h.bus]
  ppu := by rw [h.ppu]

theorem AccessFrame.of_write (h : WriteFrame s t) : AccessFrame s t where
  cfg := h.cfg
  trace := h.trace
  bus := by rw [h.bus]
  ppu := by rw [h.ppu]

theorem AccessFrame.of_cpu (h : t = { s with cpu := t.cpu }) : AccessFrame s t := by
  rw [h]
  exact ⟨rfl, rfl, rfl, rfl⟩

theorem Touch.frame (h : Touch F s t) : AccessFrame s t := by
  cases h with
  | read _ h => exact .of_read (memRead_frame h)
  | write _ h => exact .of_write (memWrite_frame h)
  | cpu h _ => exact .of_cpu h

theorem Touches.frame (h : Touches F s t) : AccessFrame s t := by
  induction h with
  | refl => exact AccessFrame.refl s
  | tail _ hlast ih => exact ih.trans hlast.frame

/-! ### What accesses off the registers leave alone -/

/-- No register read or stored: nothing of the PPU changes (R85, R311). -/
theorem Touch.ppu_of_no_register (hF : ∀ e ∈ F.reads ++ F.stores, ¬IsPpuRegister e) (h : Touch F s t) : t.ppu = s.ppu := by
  cases h with
  | read ha h =>
    have := hF _ (List.mem_append_left _ ha)
    exact memRead_ppu h (by omega)
  | write ha h =>
    have := hF _ (List.mem_append_right _ ha)
    obtain ⟨hppu, -⟩ := memWrite_devices h
    exact hppu (by omega)
  | cpu h _ => rw [h]

/-- The bus with its three CPU-side memories left out. -/
def busDevices (s : State) : Bus := { s.bus with ram := [], scratch := [], prgRam := [] }

/-- No register read or stored: of the bus only the memories change (R85, R153). -/
theorem Touch.busDevices_of_no_register (hF : ∀ e ∈ F.reads ++ F.stores, ¬IsRegister e) (h : Touch F s t) :
    busDevices t = busDevices s := by
  cases h with
  | read ha h =>
    have := hF _ (List.mem_append_left _ ha)
    rw [memRead_plain h (by omega)]
  | write ha h =>
    have := hF _ (List.mem_append_right _ ha)
    obtain ⟨-, -, hbus⟩ := memWrite_plain h (by omega)
    rw [busDevices, hbus]
    rfl
  | cpu h _ => rw [h]; rfl

/-- A read changes neither the nametables, the palette, OAM nor the DMA state. -/
theorem ReadFrame.memories (h : ReadFrame s t) :
    t.ppu.vram = s.ppu.vram ∧ t.ppu.palette = s.ppu.palette ∧ t.ppu.oam = s.ppu.oam ∧ t.bus.dma = s.bus.dma := by
  rw [h.ppu, h.bus]
  exact ⟨rfl, rfl, rfl, rfl⟩

/-- No store to `$2007`: the nametables and the palette stay (R96). -/
theorem Touch.vram_palette (hF : ∀ e ∈ F.stores, ¬PpuRegisterAt 7 e) (h : Touch F s t) :
    (t.ppu.vram, t.ppu.palette) = (s.ppu.vram, s.ppu.palette) := by
  rw [Prod.mk.injEq]
  cases h with
  | read _ h =>
    obtain ⟨hv, hp, -, -⟩ := ReadFrame.memories (memRead_frame h)
    exact ⟨hv, hp⟩
  | write ha h =>
    obtain ⟨-, hvram, -⟩ := memWrite_devices h
    exact hvram (hF _ ha)
  | cpu h _ => rw [h]; exact ⟨rfl, rfl⟩

/-- No store to `$2004`: OAM stays. -/
theorem Touch.oam (hF : ∀ e ∈ F.stores, ¬PpuRegisterAt 4 e) (h : Touch F s t) : t.ppu.oam = s.ppu.oam := by
  cases h with
  | read _ h =>
    obtain ⟨-, -, hoam, -⟩ := ReadFrame.memories (memRead_frame h)
    exact hoam
  | write ha h =>
    obtain ⟨-, -, hoam, -⟩ := memWrite_devices h
    exact hoam (hF _ ha)
  | cpu h _ => rw [h]

/-- No store to `$4014`: the DMA state stays. -/
theorem Touch.dma (hF : ∀ e ∈ F.stores, e ≠ 0x4014) (h : Touch F s t) : t.bus.dma = s.bus.dma := by
  cases h with
  | read _ h =>
    obtain ⟨-, -, -, hdma⟩ := ReadFrame.memories (memRead_frame h)
    exact hdma
  | write ha h =>
    obtain ⟨-, -, -, hdma⟩ := memWrite_devices h
    exact hdma (hF _ ha)
  | cpu h _ => rw [h]

end Sys2Proof.Proofs
end

section
/-!
SUPPORT. Every instruction answers a next state that its accesses reach inside its footprint, and its run status there says how
it ended: `run_spec`, one case for each operand class.
-/

namespace Sys2Proof.Proofs

open Sys2Proof.Machine Sys2Proof.Claims

variable {F : Footprint} {s t : State}

/-! ### Changes of P -/

theorem FlagChange.setFlag {bits : List Nat} {p q : Byte} (h : FlagChange bits p q) (f : Flag) (b : Bool)
    (hf : flagBit f ∈ bits) : FlagChange bits p (setFlag f b q) where
  flags k hk hb := by
    have hne : k ≠ flagBit f := fun e => hb (e ▸ hf)
    rw [getLsbD_setFlag _ _ _ k hk, if_neg hne, h.flags k hk hb]
  status hp := by
    obtain ⟨h4, h5⟩ := setFlag_bits45 f b q
    rw [StatusOk, h4, h5]
    exact h.status hp

theorem FlagChange.setZN {bits : List Nat} {p q : Byte} (h : FlagChange bits p q) (v : Byte) (h1 : 1 ∈ bits)
    (h7 : 7 ∈ bits) : FlagChange bits p (setZN v q) :=
  (h.setFlag .zero _ h1).setFlag .negative _ h7

/-- What PLP and RTI put into P has bits 4 and 5 as R16 has them. -/
theorem statusOk_pulledStatus (v : Byte) : StatusOk (pulledStatus v) := by
  rw [StatusOk, getLsbD_pulledStatus _ 5 (by decide), getLsbD_pulledStatus _ 4 (by decide)]
  simp

theorem flagChange_pulledStatus (p v : Byte) : FlagChange [0, 1, 2, 3, 4, 5, 6, 7] p (pulledStatus v) where
  flags k hk hb := absurd (show k ∈ List.range 8 from List.mem_range.2 hk) hb
  status _ := statusOk_pulledStatus v

/-! ### The operations on registers -/

theorem ReadOp.apply_frame (op : ReadOp) (m : Byte) (s : State) :
    op.apply m s =
      { s with
        cpu := { s.cpu with
          a := (op.apply m s).cpu.a
          x := (op.apply m s).cpu.x
          y := (op.apply m s).cpu.y
          p := (op.apply m s).cpu.p } } := by
  cases op <;> rfl

/-- Of each operation and register, the pair is excluded or the register stays by definition. -/
theorem ReadOp.apply_regs (op : ReadOp) (m : Byte) (s : State) (r : Reg) (h : op.writes r = false) :
    r.get (op.apply m s).cpu = r.get s.cpu := by
  cases op <;> cases r <;> cases h <;> rfl

theorem ReadOp.apply_flags (op : ReadOp) (m : Byte) (s : State) : FlagChange op.bits s.cpu.p (op.apply m s).cpu.p := by
  have h := FlagChange.refl op.bits s.cpu.p
  cases op with
  | adc | sbc => exact ((h.setFlag .carry _ (by decide)).setFlag .overflow _ (by decide)).setZN _ (by decide) (by decide)
  | bit =>
    exact ((h.setFlag .zero _ (by decide)).setFlag .overflow _ (by decide)).setFlag .negative _ (by decide)
  | cmp | cpx | cpy =>
    exact ((h.setFlag .carry _ (by decide)).setFlag .zero _ (by decide)).setFlag .negative _ (by decide)
  | lda | ldx | ldy | and | ora | eor => exact h.setZN _ (by decide) (by decide)

theorem ReadOp.apply_keeps (op : ReadOp) (m : Byte) (s : State) : CpuKeeps op.writes op.bits s.cpu (op.apply m s).cpu where
  regs := op.apply_regs m s
  flag := op.apply_flags m s
  idle := by rw [op.apply_frame]
  cycles := by rw [op.apply_frame]

/-- Replacing P is a step when the footprint has the bits that change. -/
theorem setStatus_touch {p : Byte} (h : FlagChange F.bits s.cpu.p p) : Touch F s (setStatus p s) :=
  .cpu rfl ⟨fun r _ => by cases r <;> rfl, h, Nat.le_refl _, rfl⟩

theorem ReadOp.apply_touch (op : ReadOp) (m : Byte) (s : State) (hw : F.writes = op.writes) (hb : F.bits = op.bits) :
    Touch F s (op.apply m s) := by
  refine .cpu ?_ (by rw [hw, hb]; exact op.apply_keeps m s)
  rw [op.apply_frame]

theorem loadA_touch (v : Byte) (s : State) (hw : F.writes .a = true) (h1 : 1 ∈ F.bits) (h7 : 7 ∈ F.bits) :
    Touch F s (loadA v s) := by
  refine .cpu rfl ⟨fun r hr => ?_, (FlagChange.refl _ _).setZN v h1 h7, Nat.le_refl _, rfl⟩
  cases r with
  | a => exact absurd (hw.symm.trans hr) (by decide)
  | _ => rfl

/-- Changing SP is a step when the footprint has SP. -/
theorem sp_touch (v : Byte) (s : State) (hw : F.writes .sp = true) : Touch F s { s with cpu := { s.cpu with sp := v } } := by
  refine .cpu rfl ⟨fun r hr => ?_, FlagChange.refl _ _, Nat.le_refl _, rfl⟩
  cases r with
  | sp => exact absurd (hw.symm.trans hr) (by decide)
  | _ => rfl

/-- The end of an instruction is a step of every footprint. -/
theorem retire_touch (pc : Word) (idle : Nat) (s : State) : Touch F s (retire pc idle s) :=
  .cpu rfl ⟨fun r _ => by cases r <;> rfl, FlagChange.refl _ _, Nat.le_add_right _ _, rfl⟩

theorem advance_touch (len : Word) (idle : Nat) (s : State) : Touch F s (advance len idle s) := retire_touch _ _ _

theorem charge_touch (idle : Nat) (s : State) : Touch F s (charge idle s) :=
  .cpu rfl ⟨fun r _ => by cases r <;> rfl, FlagChange.refl _ _, Nat.le_add_right _ _, rfl⟩

theorem runStatus_touch (status : RunStatus) (s : State) : Touch F s { s with cpu := { s.cpu with runStatus := status } } :=
  .cpu rfl ⟨fun r _ => by cases r <;> rfl, FlagChange.refl _ _, Nat.le_refl _, rfl⟩

theorem stopWith_touch (f : Fault) (s : State) : Touch F s (s.stopWith f) := runStatus_touch _ s

/-- The registers' operations but NOP are one step, NOP is none. -/
theorem RegisterOp.apply_touches (op : RegisterOp) (s : State) (hw : F.writes = op.writes) (hb : F.bits = op.bits) :
    Touches F s (op.apply s) := by
  cases op with
  | load op value => exact .single (op.apply_touch _ s hw hb)
  | txs => exact .single (sp_touch s.cpu.x s (by rw [hw]; rfl))
  | shift op =>
    have h0 : 0 ∈ F.bits := by rw [hb]; simp [RegisterOp.bits]
    have h1 : 1 ∈ F.bits := by rw [hb]; simp [RegisterOp.bits]
    have h7 : 7 ∈ F.bits := by rw [hb]; simp [RegisterOp.bits]
    exact (Relation.ReflTransGen.single (setStatus_touch ((FlagChange.refl _ _).setFlag .carry _ h0))).tail
      (loadA_touch _ _ (by rw [hw]; rfl) h1 h7)
  | flag f b =>
    exact .single (setStatus_touch ((FlagChange.refl _ _).setFlag f b (by rw [hb]; exact List.mem_singleton_self _)))
  | nop => exact .refl

theorem RegisterOp.apply_runStatus (op : RegisterOp) (s : State) : (op.apply s).cpu.runStatus = s.cpu.runStatus := by
  cases op with
  | load op value => simp only [RegisterOp.apply]; rw [op.apply_frame]
  | _ => rfl

/-! ### How an instruction ends -/

/-- An instruction completes, or it faults with PC and the cycles owed as they were (R155, R418). -/
inductive Stop (s t : State) : Prop
  | completed (h : t.cpu.runStatus = s.cpu.runStatus)
  | faulted (f : Fault) (h : t.cpu.runStatus = .faulted f) (hpc : t.cpu.pc = s.cpu.pc)
      (hidle : t.cpu.idleCycles = s.cpu.idleCycles)

/-- A next state that the footprint's accesses reach, and one of the two ends. -/
def Runs (F : Footprint) (s : State) (o : Host.Outcome State Fault Refusal) : Prop :=
  ∃ t, o = .next t ∧ Touches F s t ∧ Stop s t

/-! ### The read, write and read-modify-write classes -/

theorem runRead_runs (op : ReadOp) (mode : Mode) (s : State) :
    Runs ((InstrClass.read op mode).footprint s) s ((InstrClass.read op mode).run s) := by
  rcases runRead_cases mode.length mode.readCycles mode.pageCross (mode.operand s) op.apply s with
    ⟨m, s1, hread, heq⟩ | ⟨-, heq⟩
  · refine ⟨_, heq, ?_, .completed ?_⟩
    · have ha : (mode.operand s).addr ∈ [mode.address s] := by rw [mode.operand_addr]; exact List.mem_singleton_self _
      exact ((Relation.ReflTransGen.single (Touch.read ha hread)).tail (op.apply_touch m s1 rfl rfl)).tail (advance_touch _ _ _)
    · rw [advance_runStatus, op.apply_frame, (memRead_frame hread).cpu]
  · exact ⟨_, heq, .single (stopWith_touch _ s), .faulted _ rfl rfl rfl⟩

theorem runWrite_runs (r : Reg) (mode : Mode) (s : State) :
    Runs ((InstrClass.write r mode).footprint s) s ((InstrClass.write r mode).run s) := by
  rcases runWrite_cases mode.length mode.writeCycles (mode.operand s) (r.get s.cpu) s with ⟨s1, hwrite, heq⟩ | ⟨-, heq⟩
  · refine ⟨_, heq, ?_, .completed ?_⟩
    · have ha : (mode.operand s).addr ∈ [mode.address s] := by rw [mode.operand_addr]; exact List.mem_singleton_self _
      exact (Relation.ReflTransGen.single (Touch.write ha hwrite)).tail (advance_touch _ _ _)
    · rw [advance_runStatus, (memWrite_frame hwrite).cpu]
  · exact ⟨_, heq, .single (stopWith_touch _ s), .faulted _ rfl rfl rfl⟩

theorem ModifyOp.before_flags (op : ModifyOp) (m p : Byte) : FlagChange op.bits p (op.before m p) := by
  cases op with
  | step delta => exact FlagChange.refl _ _
  | shift op => exact (FlagChange.refl _ _).setFlag .carry _ (by simp [ModifyOp.bits, flagBit])

theorem ModifyOp.mem_bits (op : ModifyOp) : 1 ∈ op.bits ∧ 7 ∈ op.bits := by
  cases op <;> simp [ModifyOp.bits]

theorem runModify_runs (op : ModifyOp) (mode : Mode) (s : State) :
    Runs ((InstrClass.modify op mode).footprint s) s ((InstrClass.modify op mode).run s) := by
  have ha : (mode.operand s).addr ∈ [mode.address s] := by rw [mode.operand_addr]; exact List.mem_singleton_self _
  rcases runModify_cases mode.length mode.modifyCycles (mode.operand s) op.result op.before s with
    ⟨m, s1, s2, hread, hwrite, heq⟩ | ⟨m, s1, hread, -, heq⟩ | ⟨-, heq⟩
  · refine ⟨_, heq, ?_, .completed ?_⟩
    · have hbefore : Touches ((InstrClass.modify op mode).footprint s) s (setStatus (op.before m s1.cpu.p) s1) :=
        (Relation.ReflTransGen.single (Touch.read ha hread)).tail (setStatus_touch (op.before_flags m _))
      have hflags : FlagChange op.bits s2.cpu.p (setZN (op.result m s1) s2.cpu.p) :=
        (FlagChange.refl _ _).setZN _ op.mem_bits.1 op.mem_bits.2
      exact ((hbefore.tail (Touch.write ha hwrite)).tail (setStatus_touch hflags)).tail (advance_touch _ _ _)
    · rw [advance_runStatus, setStatus_runStatus, (memWrite_frame hwrite).cpu, setStatus_runStatus, (memRead_frame hread).cpu]
  · refine ⟨_, heq, ?_, .faulted _ rfl ?_ ?_⟩
    · exact ((Relation.ReflTransGen.single (Touch.read ha hread)).tail (setStatus_touch (op.before_flags m _))).tail
        (stopWith_touch _ _)
    · rw [State.stopWith_pc, setStatus_pc, (memRead_frame hread).cpu]
    · rw [State.stopWith_idleCycles, setStatus_idleCycles, (memRead_frame hread).cpu]
  · exact ⟨_, heq, .single (stopWith_touch _ s), .faulted _ rfl rfl rfl⟩

/-! ### Reads in a row -/

/-- Whether the accesses go through or fault, they land in a state with the property. -/
def Lands {α : Type} (P : State → Prop) : Access α → Prop
  | .done _ t => P t
  | .stopped _ t => P t

theorem Lands.andThen {α β : Type} {P : State → Prop} {r : Access α} {next : α → State → Access β} (h : Lands P r)
    (hnext : ∀ v t, P t → Lands P (next v t)) : Lands P (r.andThen next) := by
  cases r with
  | done v t => exact hnext v t h
  | stopped f t => exact h

/-- A bus read that faults lands where it began (R88). -/
theorem memRead_lands {P : State → Prop} (a : Word) (s : State) (hs : P s)
    (hread : ∀ v t, memRead a s = .done v t → P t) : Lands P (memRead a s) := by
  by_cases h : Readable s a
  · obtain ⟨v, t, heq⟩ := memRead_done a s h
    rw [heq]
    exact hread v t heq
  · rw [memRead_stopped a s h]
    exact hs

/-- The state of a sequence of accesses that has changed no register yet. -/
def Reached (F : Footprint) (s t : State) : Prop := Touches F s t ∧ t.cpu = s.cpu

theorem memRead_reached {a : Word} (ha : a ∈ F.reads) (h : Reached F s t) : Lands (Reached F s) (memRead a t) := by
  obtain ⟨htouches, hcpu⟩ := h
  refine memRead_lands a t ⟨htouches, hcpu⟩ fun v u hread => ?_
  exact ⟨htouches.tail (.read ha hread), (memRead_frame hread).cpu.trans hcpu⟩

theorem read16Wrap_reached {a : Word} (ha : a ∈ F.reads) (hb : nextInPage a ∈ F.reads) (s : State) :
    Lands (Reached F s) (read16Wrap a s) :=
  (memRead_reached ha ⟨.refl, rfl⟩).andThen fun _ _ h => (memRead_reached hb h).andThen fun _ _ h' => h'

theorem jumpIndirect_runs (ptr : Word) (s : State) :
    Runs ((InstrClass.jumpIndirect ptr).footprint s) s ((InstrClass.jumpIndirect ptr).run s) := by
  have h := read16Wrap_reached (F := (InstrClass.jumpIndirect ptr).footprint s) (a := ptr) List.mem_cons_self
    (List.mem_cons_of_mem _ (List.mem_singleton_self _)) s
  rw [InstrClass.run, execJmpInd]
  cases hr : read16Wrap ptr s with
  | done target t =>
    rw [hr] at h
    obtain ⟨htouches, hcpu⟩ := h
    exact ⟨_, rfl, htouches.tail (retire_touch _ _ _), .completed (by rw [retire_runStatus, hcpu])⟩
  | stopped f t =>
    rw [hr] at h
    obtain ⟨htouches, hcpu⟩ := h
    exact ⟨_, rfl, htouches.tail (stopWith_touch _ _),
      .faulted f rfl (by rw [State.stopWith_pc, hcpu]) (by rw [State.stopWith_idleCycles, hcpu])⟩

/-! ### The stack and the interrupt instructions -/

/-- A push is a bus write of the stack slot and a step of SP (R137). -/
theorem push_touches (d : Byte) (hslot : stackSlot s 0 ∈ F.stores) (hw : F.writes .sp = true) : Touches F s (push d s) := by
  have heq : stackSlot s 0 = BitVec.ofNat 16 (stackIndex s.cpu.sp) := by
    rw [stackSlot, stackCell, stackIndex]
    have := s.cpu.sp.isLt
    congr 1
    omega
  exact (Relation.ReflTransGen.single (Touch.write (heq ▸ hslot) (push_eq_memWrite d s))).tail (sp_touch _ _ hw)

/-- The first free slot after `n` pushes more. -/
theorem stackSlot_of_sp {n : Nat} (hn : n < 256) (h : t.cpu.sp = s.cpu.sp - BitVec.ofNat 8 n) :
    stackSlot t 0 = stackSlot s n := by
  rw [stackSlot, stackSlot, stackCell, stackCell, h, BitVec.toNat_sub, BitVec.toNat_ofNat]
  have := s.cpu.sp.isLt
  congr 1
  omega

theorem pushWord_touches (w : Word) (h0 : stackSlot s 0 ∈ F.stores) (h1 : stackSlot s 1 ∈ F.stores)
    (hw : F.writes .sp = true) : Touches F s (pushWord w s) := by
  have heq : stackSlot (push (hiByte w) s) 0 = stackSlot s 1 := stackSlot_of_sp (by decide) rfl
  exact (push_touches _ h0 hw).trans (push_touches _ (heq ▸ h1) hw)

/-- Taking an interrupt is three pushes, then I and PC (R268, R410). -/
theorem takeInterrupt_touches (ret : Word) (status : Byte) (vector : Word) (h0 : stackSlot s 0 ∈ F.stores)
    (h1 : stackSlot s 1 ∈ F.stores) (h2 : stackSlot s 2 ∈ F.stores) (hw : F.writes .sp = true) (hb : 2 ∈ F.bits) :
    Touches F s (takeInterrupt ret status vector s) := by
  have hsp : s.cpu.sp - 1 - 1 = s.cpu.sp - 2 := by bv_omega
  have heq : stackSlot (pushWord ret s) 0 = stackSlot s 2 := stackSlot_of_sp (by decide) hsp
  refine ((pushWord_touches ret h0 h1 hw).trans (push_touches status (heq ▸ h2) hw)).tail (.cpu rfl ?_)
  exact ⟨fun r _ => by cases r <;> rfl, (FlagChange.refl _ s.cpu.p).setFlag .interruptDisable true hb, Nat.le_refl _, rfl⟩

theorem afterPull_touch (s : State) (hw : F.writes .sp = true) : Touch F s (afterPull s) := sp_touch _ s hw

/-- The return of RTI is one change of P, SP and PC (R269). -/
theorem returnFromInterrupt_touch (s : State) :
    Touch ((InstrClass.rti).footprint s) s (returnFromInterrupt s) := by
  refine .cpu rfl ⟨fun r hr => ?_, flagChange_pulledStatus _ _, Nat.le_refl _, rfl⟩
  cases r with
  | sp => cases hr
  | _ => rfl

theorem brk_spec (s : State) :
    Runs ((InstrClass.brk).footprint s) s (execBrk s) ∨
      (s.cfg.brkMode = .halt ∧
        ∃ t, execBrk s = .next t ∧ Touches ((InstrClass.brk).footprint s) s t ∧ t.cpu.runStatus = .halted) := by
  rw [execBrk]
  cases s.cfg.brkMode with
  | halt => exact .inr ⟨rfl, _, rfl, (Relation.ReflTransGen.single (runStatus_touch _ s)).tail (charge_touch _ _), rfl⟩
  | vector =>
    refine .inl ⟨_, rfl, (takeInterrupt_touches _ _ _ ?_ ?_ ?_ rfl ?_).tail (charge_touch _ _), .completed rfl⟩
    all_goals simp [InstrClass.footprint, InstrClass.stores, InstrClass.bits]

/-! ### All instructions -/

/-- What every class does: a next state inside its footprint that completes or faults, or the halt of BRK (R155, R268). -/
theorem run_spec (c : InstrClass) (s : State) :
    Runs (c.footprint s) s (c.run s) ∨
      (c = .brk ∧ s.cfg.brkMode = .halt ∧
        ∃ t, c.run s = .next t ∧ Touches (c.footprint s) s t ∧ t.cpu.runStatus = .halted) := by
  cases c with
  | immediate op m =>
    refine .inl ⟨_, rfl, (Relation.ReflTransGen.single (op.apply_touch m s rfl rfl)).tail (advance_touch _ _ _), .completed ?_⟩
    rw [advance_runStatus, op.apply_frame]
  | read op mode => exact .inl (runRead_runs op mode s)
  | write r mode => exact .inl (runWrite_runs r mode s)
  | modify op mode => exact .inl (runModify_runs op mode s)
  | register op =>
    refine .inl ⟨_, rfl, (op.apply_touches s rfl rfl).tail (advance_touch _ _ _), .completed ?_⟩
    rw [advance_runStatus, op.apply_runStatus]
  | branch f want disp =>
    left
    rw [InstrClass.run, runBranch]
    split
    · exact ⟨_, rfl, .single (retire_touch _ _ s), .completed rfl⟩
    · exact ⟨_, rfl, .single (advance_touch _ _ s), .completed rfl⟩
  | jump addr => exact .inl ⟨_, rfl, .single (retire_touch _ _ s), .completed rfl⟩
  | jumpIndirect ptr => exact .inl (jumpIndirect_runs ptr s)
  | jsr addr =>
    have h1 : stackSlot s 1 ∈ [stackSlot s 0, stackSlot s 1] := List.mem_cons_of_mem _ (List.mem_singleton_self _)
    exact .inl ⟨_, rfl, (pushWord_touches _ List.mem_cons_self h1 rfl).tail (retire_touch _ _ _), .completed rfl⟩
  | rts =>
    refine .inl ⟨_, rfl, ?_, .completed rfl⟩
    exact ((Relation.ReflTransGen.single (afterPull_touch s rfl)).tail (afterPull_touch _ rfl)).tail (retire_touch _ _ _)
  | pha => exact .inl ⟨_, rfl, (push_touches _ List.mem_cons_self rfl).tail (advance_touch _ _ _), .completed rfl⟩
  | php => exact .inl ⟨_, rfl, (push_touches _ List.mem_cons_self rfl).tail (advance_touch _ _ _), .completed rfl⟩
  | pla =>
    refine .inl ⟨_, rfl, ?_, .completed rfl⟩
    exact ((Relation.ReflTransGen.single (afterPull_touch s rfl)).tail
      (loadA_touch _ _ rfl List.mem_cons_self (List.mem_cons_of_mem _ List.mem_cons_self))).tail (advance_touch _ _ _)
  | plp =>
    refine .inl ⟨_, rfl, ?_, .completed rfl⟩
    exact ((Relation.ReflTransGen.single (afterPull_touch s rfl)).tail
      (setStatus_touch (flagChange_pulledStatus _ _))).tail (advance_touch _ _ _)
  | rti =>
    exact .inl ⟨_, rfl, (Relation.ReflTransGen.single (returnFromInterrupt_touch s)).tail (charge_touch _ _), .completed rfl⟩
  | brk =>
    rcases brk_spec s with h | h
    · exact .inl h
    · exact .inr ⟨rfl, h⟩

/-- The footprint of an instruction, in the words of the statements. -/
def footprintOf (i : Instr) (s : State) : Footprint := (classOf i).footprint s

@[simp] theorem footprintOf_reads (i : Instr) (s : State) : (footprintOf i s).reads = readAddresses i s :=
  (readAddresses_eq i s).symm

@[simp] theorem footprintOf_stores (i : Instr) (s : State) : (footprintOf i s).stores = storedAddresses i s :=
  (storedAddresses_eq i s).symm

/-- Every instruction answers a next state. -/
theorem exec_spec (i : Instr) (s : State) :
    ∃ t, exec i s = .next t ∧ Touches (footprintOf i s) s t ∧
      (Stop s t ∨ (i = .brk ∧ s.cfg.brkMode = .halt ∧ t.cpu.runStatus = .halted)) := by
  rw [exec_eq_run]
  rcases run_spec (classOf i) s with ⟨t, heq, htouches, hstop⟩ | ⟨hc, hmode, t, heq, htouches, hhalted⟩
  · exact ⟨t, heq, htouches, .inl hstop⟩
  · exact ⟨t, heq, htouches, .inr ⟨classOf_eq_brk hc, hmode, hhalted⟩⟩

/-- The next state of an instruction is reached inside its footprint. -/
theorem exec_touches {i : Instr} (h : exec i s = .next t) : Touches (footprintOf i s) s t := by
  obtain ⟨u, heq, htouches, -⟩ := exec_spec i s
  rw [h] at heq
  cases heq
  exact htouches

end Sys2Proof.Proofs
end

section
/-!
SUPPORT. The statements about every instruction's outcome, registers, flags and devices, from what its accesses keep.
-/

namespace Sys2Proof.Proofs

open Sys2Proof.Machine Sys2Proof.Claims

variable {s t : State}

/-! ### Sub-steps keep what their accesses keep -/

/-- The memory accesses of a fetch keep what a bus read and the trace line keep. -/
theorem fetch_lands {P : State → Prop} (hread : ∀ {a : Word} {s t : State} {v : Byte}, P s → memRead a s = .done v t → P t)
    (htrace : ∀ {s : State} (opcode : Byte), P s → P (emitTrace opcode s)) (hs : P s) : Lands P (fetch s) := by
  have hone : ∀ (a : Word) (s : State), P s → Lands P (memRead a s) := fun a s hs =>
    memRead_lands a s hs fun _ _ => hread hs
  refine (hone _ s hs).andThen fun opcode s1 h1 => ?_
  cases rowOf opcode with
  | none => exact htrace opcode h1
  | some row =>
    have h2 := htrace opcode h1
    cases row with
    | alone i => exact h2
    | oneByte make => exact (hone _ _ h2).andThen fun _ _ h => h
    | twoBytes make =>
      have hword : Lands P (read16 ((emitTrace opcode s1).cpu.pc + 1) (emitTrace opcode s1)) :=
        (hone _ _ h2).andThen fun _ _ h => (hone _ _ h).andThen fun _ _ h' => h'
      exact hword.andThen fun _ _ h => h

/-- What an instruction, a fault and the fetch's accesses keep, `executeOne` keeps. -/
theorem executeOne_keeps {P : State → Prop} (hfetch : Lands P (fetch s))
    (hexec : ∀ {i : Instr} {s t : State}, P s → exec i s = .next t → P t)
    (hstop : ∀ {s : State} (f : Fault), P s → P (s.stopWith f)) (h : executeOne s = .next t) : P t := by
  rw [executeOne] at h
  cases hr : fetch s with
  | done i s1 =>
    rw [hr] at h hfetch
    exact hexec hfetch h
  | stopped f s1 =>
    rw [hr] at h hfetch
    cases h
    exact hstop f hfetch

/-- What an access keeps and a fault keeps, the end of the instruction keeps. -/
theorem settle_keeps {P : State → Prop} {r : Access Unit} (hr : Lands P r)
    (hstop : ∀ {s : State} (f : Fault), P s → P (s.stopWith f)) (h : settle r = .next t) : P t := by
  cases r with
  | done v u => cases h; exact hr
  | stopped f u => cases h; exact hstop f hr

/-! ### O11: the outcome of an instruction, and the configuration -/

theorem exec_cfg {i : Instr} (h : exec i s = .next t) : t.cfg = s.cfg := (exec_touches h).frame.cfg

theorem executeOne_cfg (h : executeOne s = .next t) : t.cfg = s.cfg := by
  refine executeOne_keeps (P := fun u => u.cfg = s.cfg) (fetch_lands ?_ (fun _ hs => hs) rfl) ?_ (fun _ hs => hs) h
  · exact fun hs hread => (memRead_frame hread).cfg.trans hs
  · exact fun hs hexec => (exec_cfg hexec).trans hs

theorem countCompleted_cfg (s : State) : (countCompleted s).cfg = s.cfg := by
  rw [countCompleted]
  split <;> rfl

theorem fetchStep_cfg (h : fetchStep s = .next t) : t.cfg = s.cfg := by
  rw [fetchStep] at h
  split at h
  case h_1 u hu =>
    cases h
    rw [countCompleted_cfg, executeOne_cfg hu]
    split <;> rfl
  all_goals cases h

theorem dmaCycle_cfg (s : State) : Lands (fun t => t.cfg = s.cfg) (dmaCycle s) := by
  rw [dmaCycle]
  split
  · rfl
  · split
    · exact (memRead_lands (P := fun t => t.cfg = s.cfg) _ s rfl fun _ _ hread => (memRead_frame hread).cfg).andThen
        fun _ _ h => h
    · rfl

theorem idleStep_cfg (h : idleStep s = .next t) : t.cfg = s.cfg := by
  rw [idleStep] at h
  refine settle_keeps (P := fun u => u.cfg = s.cfg) ?_ (fun _ hu => hu) h
  refine Lands.andThen ?_ fun _ _ hu => hu
  split
  · exact dmaCycle_cfg s
  · rfl

theorem cpuStep_cfg (h : cpuStep s = .next t) : t.cfg = s.cfg := by
  rw [cpuStep] at h
  split at h
  · split at h
    · exact idleStep_cfg h
    · exact fetchStep_cfg h
  all_goals
    cases h
    rfl

/-- No step changes the configuration (R10). -/
theorem step_cfg (h : step s = .next t) : t.cfg = s.cfg := by
  rw [step, systemTick] at h
  split at h
  · split at h
    · exact (cpuStep_cfg h).trans (ppuTick_cfg s)
    · cases h; rfl
  · cases h; rfl
  · cases h

/-- Settles O11: an instruction's accesses keep the configuration, the trace and the cycle count, and its run status says how it
ended; the fetch and the DMA read only through the bus. -/
theorem instructionOutcome : Obligations.InstructionOutcome := by
  refine ⟨fun i s => ?_, fun s t => step_cfg⟩
  obtain ⟨t, heq, htouches, hend⟩ := exec_spec i s
  refine ⟨t, heq, htouches.frame.cfg, htouches.frame.trace, htouches.cpuKeeps.cycles, ?_⟩
  rcases hend with (hsame | ⟨f, hf, hpc, hidle⟩) | hhalt
  · exact .inl hsame
  · exact .inr (.inr ⟨f, hf, hpc, hidle⟩)
  · exact .inr (.inl hhalt)

/-! ### O38: registers and flags -/

/-- A bit that the class does not list is not in its list of bits. -/
theorem not_mem_of_contains {bits : List Nat} {k : Nat} {b : Bool} (heq : b = bits.contains k) (hb : b = false) : k ∉ bits := by
  rw [hb] at heq
  simpa using heq.symm

/-- Settles O38: the accesses of an instruction change only its class's registers and bits of P. -/
theorem registerAndFlagFrame : Obligations.RegisterAndFlagFrame := by
  intro i s t h
  obtain ⟨hregs, ⟨hflags, -⟩, -, -⟩ := (exec_touches h).cpuKeeps
  obtain ⟨hz, hn⟩ := writesZN_eq i
  refine ⟨fun hw => hregs .a ((writesA_eq i).symm.trans hw), fun hw => hregs .x ((writesX_eq i).symm.trans hw),
    fun hw => hregs .y ((writesY_eq i).symm.trans hw), fun hw => hregs .sp ((writesSp_eq i).symm.trans hw),
    fun hw => hflags 0 (by decide) (not_mem_of_contains (writesC_eq i) hw),
    fun hw => hflags 1 (by decide) (not_mem_of_contains hz hw),
    fun hw => hflags 2 (by decide) (not_mem_of_contains (writesI_eq i) hw),
    fun hw => hflags 3 (by decide) (not_mem_of_contains (writesD_eq i) hw),
    fun hw => hflags 6 (by decide) (not_mem_of_contains (writesV_eq i) hw),
    fun hw => hflags 7 (by decide) (not_mem_of_contains hn hw), fun hplp hrti => ?_⟩
  obtain ⟨h4, h5⟩ := (classOf i).bits_ne_45 (fun hc => hplp (classOf_eq_plp hc)) fun hc => hrti (classOf_eq_rti hc)
  exact ⟨hflags 4 (by decide) h4, hflags 5 (by decide) h5⟩

/-! ### O40: the devices -/

/-- The bus from its devices: where they are the same, only the three memories may differ. -/
theorem bus_eq_of_busDevices (h : busDevices t = busDevices s) :
    t.bus = { s.bus with ram := t.bus.ram, scratch := t.bus.scratch, prgRam := t.bus.prgRam } :=
  congrArg (fun b : Bus => { b with ram := t.bus.ram, scratch := t.bus.scratch, prgRam := t.bus.prgRam }) h

/-- Settles O40: each step of an instruction's accesses keeps what the clause names, unless it reads or stores a register that
the clause excludes; the frames of the bus accesses keep the rest. -/
theorem deviceFrame : Obligations.DeviceFrame := by
  intro i s t h
  have htouches := exec_touches h
  rw [← footprintOf_reads, ← footprintOf_stores]
  refine ⟨fun hF => ⟨?_, ?_⟩, fun hF => ?_, fun hF => ?_, fun hF => ?_, fun hF => ?_, ?_⟩
  · have hF' : ∀ e ∈ (footprintOf i s).reads ++ (footprintOf i s).stores, ¬IsPpuRegister e := fun e he => by
      have := hF e he
      omega
    exact htouches.kept State.ppu (Touch.ppu_of_no_register hF')
  · exact bus_eq_of_busDevices (htouches.kept busDevices (Touch.busDevices_of_no_register hF))
  · exact htouches.kept State.ppu (Touch.ppu_of_no_register hF)
  · exact Prod.mk.inj (htouches.kept (fun u => (u.ppu.vram, u.ppu.palette)) (Touch.vram_palette hF))
  · exact htouches.kept (fun u => u.ppu.oam) (Touch.oam hF)
  · exact htouches.kept (fun u => u.bus.dma) (Touch.dma hF)
  · rw [htouches.frame.ppu, htouches.frame.bus]
    exact ⟨rfl, rfl, rfl, rfl, rfl, rfl, rfl, rfl, rfl, rfl, rfl, rfl, rfl, rfl, rfl, rfl, rfl⟩

end Sys2Proof.Proofs
end

section
/-!
SUPPORT. The invariant holds at reset, and every access, every instruction, every DMA cycle and every dot keeps it.
-/

namespace Sys2Proof.Proofs

open Sys2Proof.Machine Sys2Proof.Claims

variable {s t : State}

theorem memoryOk_nil {w : Nat} (size : Nat) : MemoryOk ([] : Memory w) size := ⟨rfl, rfl⟩

theorem memoryOk_write {w : Nat} {m : Memory w} {size i : Nat} (u : BitVec w) (hi : i < size) (h : MemoryOk m size) :
    MemoryOk (m.write i u) size :=
  ⟨Memory.wf_write m i u h.1, Memory.fits_write m i size u hi h.2⟩

/-! ### O9: at reset -/

/-- At reset every memory but the cartridge's is empty, P is `$24`, and no DMA is active (R440). -/
theorem inv_powerOn {cfg : Config} (h : ConfigOk cfg) (pc : Word) : (State.powerOn cfg pc).Inv :=
  ⟨h, ⟨memoryOk_nil _, memoryOk_nil _, memoryOk_nil _⟩,
    ⟨memoryOk_nil _, memoryOk_nil _, memoryOk_nil _, memoryOk_nil _, memoryOk_nil _⟩,
    (show StatusOk 0x24 by decide), ⟨Nat.zero_le _, Nat.zero_le _, (fun hd => nomatch hd)⟩,
    ⟨Nat.zero_le _, Nat.zero_le _⟩⟩

/-- Settles O9: the blank cartridge's ROM is empty too. -/
theorem invariantAtReset : Obligations.InvariantAtReset :=
  ⟨inv_powerOn ⟨memoryOk_nil _, memoryOk_nil _⟩ _, fun _ h => inv_powerOn h _⟩

/-! ### O10: changes of one group -/

/-- A change of the CPU group keeps the invariant when P stays as R16 has it and no cycle owed is taken back. -/
theorem inv_of_cpu (hs : s.Inv) (h : t = { s with cpu := t.cpu }) (hp : StatusOk t.cpu.p)
    (hidle : s.cpu.idleCycles ≤ t.cpu.idleCycles) : t.Inv := by
  obtain ⟨hcfg, hbus, hppu, -, ⟨hcount, halign, hactive⟩, hsprites⟩ := hs
  rw [h]
  exact ⟨hcfg, hbus, hppu, hp, ⟨hcount, halign, fun hd => ⟨(hactive hd).1, Nat.le_trans (hactive hd).2 hidle⟩⟩, hsprites⟩

theorem inv_stopWith (f : Fault) (hs : s.Inv) : (s.stopWith f).Inv := by
  obtain ⟨-, -, -, hp, -, -⟩ := id hs
  exact inv_of_cpu hs rfl hp (Nat.le_refl _)

theorem inv_emitTrace (opcode : Byte) (hs : s.Inv) : (emitTrace opcode s).Inv := hs

/-- A bus read changes no part of the state that the invariant speaks of. -/
theorem inv_of_read (hs : s.Inv) (h : ReadFrame s t) : t.Inv := by
  rw [State.Inv, h.cfg, h.cpu, h.bus, h.ppu]
  exact hs

/-! ### O10: writes -/

/-- A mirrored nametable address lies in the nametable memory (R36, R90). -/
theorem nametableIndex_lt (mirroring : Mirroring) (a : Nat) : nametableIndex mirroring a < vramSize mirroring := by
  cases mirroring <;> simp only [nametableIndex, physicalTable, vramSize] <;> omega

/-- A palette address lies in the palette (R37, R92). -/
theorem paletteIndex_lt (a : Nat) : paletteIndex a < 32 := by
  rw [paletteIndex]
  split <;> omega

theorem ppuStore_ok (cfg : Config) (a : BitVec 14) (d : Byte) {p : Ppu} (h : PpuMemoriesOk cfg.mirroring p) :
    PpuMemoriesOk cfg.mirroring (ppuStore cfg a d p) := by
  obtain ⟨hvram, hpalette, hoam, hsec, hframe⟩ := h
  rw [ppuStore]
  split
  · exact ⟨memoryOk_write d (nametableIndex_lt _ _) hvram, hpalette, hoam, hsec, hframe⟩
  · exact ⟨hvram, memoryOk_write d (paletteIndex_lt _) hpalette, hoam, hsec, hframe⟩

theorem writeOam_ok {m : Mirroring} (d : Byte) {p : Ppu} (h : PpuMemoriesOk m p) : PpuMemoriesOk m (writeOam d p) := by
  obtain ⟨hvram, hpalette, hoam, hsec, hframe⟩ := h
  exact ⟨hvram, hpalette, memoryOk_write d p.oamAddr.isLt hoam, hsec, hframe⟩

theorem ppuRegWrite_memoriesOk {r : PpuReg} {d : Byte} (hs : PpuMemoriesOk s.cfg.mirroring s.ppu)
    (h : ppuRegWrite r d s = .done () t) : PpuMemoriesOk s.cfg.mirroring t.ppu := by
  cases r with
  | oamData => cases h; exact writeOam_ok d hs
  | scroll =>
    cases h
    simp only [State.mapPpu_ppu, writeScroll]
    split <;> exact hs
  | addr =>
    cases h
    simp only [State.mapPpu_ppu, writeAddr]
    split <;> exact hs
  | data =>
    simp only [ppuRegWrite, writeData] at h
    split_ifs at h
    cases h
    exact ppuStore_ok s.cfg _ d hs
  | ctrl | mask | status | oamAddr => cases h; exact hs

theorem memWrite_ppuMemoriesOk {a : Word} {d : Byte} (hs : PpuMemoriesOk s.cfg.mirroring s.ppu)
    (h : memWrite a d s = .done () t) : PpuMemoriesOk s.cfg.mirroring t.ppu := by
  rw [memWrite] at h
  cases hr : regionOf s.cfg a with
  | ppu r => rw [hr] at h; exact ppuRegWrite_memoriesOk hs h
  | prgRom i => rw [hr] at h; cases h
  | _ => rw [hr] at h; cases h; exact hs

theorem memWrite_busMemoriesOk {a : Word} {d : Byte} (hs : BusMemoriesOk s.bus) (h : memWrite a d s = .done () t) :
    BusMemoriesOk t.bus := by
  obtain ⟨hram, hscratch, hprgRam⟩ := hs
  obtain ⟨hi, hj, hk, -⟩ := regionOf_bounds s.cfg a
  rw [memWrite] at h
  cases hr : regionOf s.cfg a with
  | ram i => rw [hr] at h; cases h; exact ⟨memoryOk_write d (hi i hr) hram, hscratch, hprgRam⟩
  | scratch i => rw [hr] at h; cases h; exact ⟨hram, memoryOk_write d (hj i hr) hscratch, hprgRam⟩
  | prgRam i => rw [hr] at h; cases h; exact ⟨hram, hscratch, memoryOk_write d (hk i hr) hprgRam⟩
  | ppu r =>
    rw [hr] at h
    have hspec := ppuRegWrite_spec r d s
    dsimp only at h
    rw [h] at hspec
    obtain ⟨-, -, -, hbus⟩ := hspec
    rw [hbus]
    exact ⟨hram, hscratch, hprgRam⟩
  | pad0 =>
    rw [hr] at h
    cases h
    simp only [State.mapBus_bus, writeStrobe]
    split <;> exact ⟨hram, hscratch, hprgRam⟩
  | prgRom i => rw [hr] at h; cases h
  | _ => rw [hr] at h; cases h; exact ⟨hram, hscratch, hprgRam⟩

/-- A write of `$4014` starts a DMA whose cycles are then all owed (R305, R306); no other write touches either. -/
theorem memWrite_dmaOk {a : Word} {d : Byte} (hs : DmaOk s.bus.dma s.cpu.idleCycles) (h : memWrite a d s = .done () t) :
    DmaOk t.bus.dma t.cpu.idleCycles := by
  by_cases ha : a = 0x4014
  · rw [memWrite, (regionOf_oamDma s.cfg a).2 ha] at h
    cases h
    simp only [DmaOk, startDma_bus, startDma_idleCycles, dmaRemaining]
    omega
  · have hspec := memWrite_spec a d s
    rw [h] at hspec
    obtain ⟨-, -, hcpu⟩ := hspec
    obtain ⟨-, -, -, hdma⟩ := memWrite_devices h
    rw [hdma ha, hcpu ha]
    exact hs

theorem inv_of_write {a : Word} {d : Byte} (hs : s.Inv) (h : memWrite a d s = .done () t) : t.Inv := by
  obtain ⟨hcfg, hbus, hppu, hp, hdma, hsprites⟩ := hs
  have hf := memWrite_frame h
  refine ⟨?_, memWrite_busMemoriesOk hbus h, ?_, ?_, memWrite_dmaOk hdma h, ?_⟩
  · rw [hf.cfg]; exact hcfg
  · rw [hf.cfg]; exact memWrite_ppuMemoriesOk hppu h
  · rw [hf.cpu]; exact hp
  · rw [hf.ppu]; exact hsprites

/-! ### O10: instructions and NMI entry -/

theorem inv_of_touch {F : Footprint} (hs : s.Inv) (h : Touch F s t) : t.Inv := by
  cases h with
  | read _ h => exact inv_of_read hs (memRead_frame h)
  | write _ h => exact inv_of_write hs h
  | cpu h hk =>
    obtain ⟨-, -, -, hp, -, -⟩ := id hs
    exact inv_of_cpu hs h (hk.flag.status hp) hk.idle

theorem inv_of_touches {F : Footprint} (hs : s.Inv) (h : Touches F s t) : t.Inv := by
  induction h with
  | refl => exact hs
  | tail _ hlast ih => exact inv_of_touch ih hlast

theorem inv_of_exec {i : Instr} (hs : s.Inv) (h : exec i s = .next t) : t.Inv := inv_of_touches hs (exec_touches h)

/-- NMI entry makes the accesses of BRK (R268, R410). -/
theorem inv_nmiEntry (hs : s.Inv) : (nmiEntry s).Inv := by
  have hclear : (s.mapBus fun b => { b with nmiGenerated := false }).Inv := hs
  refine inv_of_touches (F := InstrClass.brk.footprint s) hclear
    ((takeInterrupt_touches _ _ _ ?_ ?_ ?_ rfl ?_).tail (charge_touch 7 _))
  all_goals simp [InstrClass.footprint, InstrClass.stores, InstrClass.bits, stackSlot]

theorem inv_executeOne (hs : s.Inv) (h : executeOne s = .next t) : t.Inv :=
  executeOne_keeps (fetch_lands (fun hu hread => inv_of_read hu (memRead_frame hread)) inv_emitTrace hs) inv_of_exec
    inv_stopWith h

theorem inv_countCompleted (hs : s.Inv) : (countCompleted s).Inv := by
  rw [countCompleted]
  split <;> exact hs

theorem inv_fetchStep (hs : s.Inv) (h : fetchStep s = .next t) : t.Inv := by
  rw [fetchStep] at h
  split at h
  case h_1 u hu =>
    cases h
    refine inv_countCompleted (inv_executeOne ?_ hu)
    split
    · exact inv_nmiEntry hs
    · exact hs
  all_goals cases h

/-! ### O10: DMA and idle sub-steps -/

/-- The machine after one owed cycle has passed (R131, R156). -/
def idled (s : State) : State := countCycle (s.mapCpu fun c => { c with idleCycles := c.idleCycles - 1 })

/-- With a DMA state that still needs fewer cycles than were owed, the invariant holds once one owed cycle has passed. -/
theorem inv_idled (d : OamDma) (hs : s.Inv) (hcount : d.count ≤ 256) (halign : d.align ≤ 2)
    (hd : d.active = true → d.count < 256 ∧ dmaRemaining d < s.cpu.idleCycles) :
    (idled (s.mapBus fun b => { b with dma := d })).Inv := by
  obtain ⟨hcfg, hbus, hppu, hp, -, hsprites⟩ := hs
  exact ⟨hcfg, hbus, hppu, hp, ⟨hcount, halign, fun ha => ⟨(hd ha).1, Nat.le_sub_one_of_lt (hd ha).2⟩⟩, hsprites⟩

theorem inv_writeOam (d : Byte) (hs : s.Inv) : (s.mapPpu (writeOam d)).Inv := by
  obtain ⟨hcfg, hbus, hppu, hp, hdma, hsprites⟩ := hs
  exact ⟨hcfg, hbus, writeOam_ok d hppu, hp, hdma, hsprites⟩

/-- A cycle of an active DMA keeps the invariant together with the owed cycle that it takes, and on its fault without it: each
phase brings the DMA's remaining cycles down by one (R307, R308). -/
theorem inv_dmaCycle (hs : s.Inv) (hactive : s.bus.dma.active = true) :
    (∀ t, dmaCycle s = .done () t → (idled t).Inv) ∧ ∀ f t, dmaCycle s = .stopped f t → t.Inv := by
  obtain ⟨-, -, -, -, ⟨hcount, halign, hcover⟩, -⟩ := id hs
  obtain ⟨hlt, hremaining⟩ := hcover hactive
  by_cases hpos : 0 < s.bus.dma.align
  · rw [dmaCycle, if_pos hpos]
    refine ⟨fun t h => ?_, fun f t h => nomatch h⟩
    cases h
    refine inv_idled { s.bus.dma with align := s.bus.dma.align - 1 } hs hcount (by dsimp only; omega) fun _ => ⟨hlt, ?_⟩
    simp only [dmaRemaining] at hremaining ⊢
    cases hphase : s.bus.dma.phase <;> simp only [hphase] at hremaining ⊢ <;> omega
  · rw [dmaCycle, if_neg hpos]
    cases hphase : s.bus.dma.phase with
    | read =>
      simp only [dmaRemaining, hphase] at hremaining
      dsimp only
      cases hread : memRead (wordOf 0 s.bus.dma.page ||| BitVec.ofNat 16 s.bus.dma.count) s with
      | stopped f u =>
        refine ⟨(fun t h => nomatch h), fun f t h => ?_⟩
        cases h
        have hspec := memRead_spec (wordOf 0 s.bus.dma.page ||| BitVec.ofNat 16 s.bus.dma.count) s
        rw [hread] at hspec
        obtain ⟨-, -, hsame⟩ := hspec
        exact hsame ▸ hs
      | done byte u =>
        refine ⟨fun t h => ?_, fun f t h => nomatch h⟩
        cases h
        have hf := memRead_frame hread
        have hdma : u.bus.dma = s.bus.dma := by rw [hf.bus]
        refine inv_idled { u.bus.dma with latch := byte, phase := .write } (inv_of_read hs hf) ?_ ?_ fun _ => ?_
        · rw [hdma]; exact hcount
        · rw [hdma]; exact halign
        · simp only [dmaRemaining, hdma, hf.cpu]
          omega
    | write =>
      simp only [dmaRemaining, hphase] at hremaining
      refine ⟨fun t h => ?_, fun f t h => nomatch h⟩
      cases h
      refine inv_idled
        { s.bus.dma with
          count := s.bus.dma.count + 1
          phase := .read
          active := s.bus.dma.active && decide (s.bus.dma.count + 1 ≠ 256) }
        (inv_writeOam s.bus.dma.latch hs) hlt halign fun hstill => ?_
      simp only [Bool.and_eq_true, decide_eq_true_eq] at hstill
      simp only [dmaRemaining, State.mapPpu_cpu]
      omega

theorem inv_idleStep (hs : s.Inv) (h : idleStep s = .next t) : t.Inv := by
  rw [idleStep] at h
  split at h
  case isTrue hactive =>
    obtain ⟨hdone, hstopped⟩ := inv_dmaCycle hs hactive
    cases hr : dmaCycle s with
    | done v u => rw [hr] at h; cases h; exact hdone u hr
    | stopped f u => rw [hr] at h; cases h; exact inv_stopWith f (hstopped f u hr)
  case isFalse hinactive =>
    cases h
    obtain ⟨-, -, -, -, ⟨hcount, halign, -⟩, -⟩ := id hs
    exact inv_idled s.bus.dma hs hcount halign fun hactive => absurd hactive hinactive

/-! ### O10: steps -/

theorem inv_cpuStep (hs : s.Inv) (h : cpuStep s = .next t) : t.Inv := by
  rw [cpuStep] at h
  split at h
  · split at h
    · exact inv_idleStep hs h
    · exact inv_fetchStep hs h
  all_goals
    cases h
    exact hs

/-- The PPU's part of a tick (R420). -/
theorem inv_ppuTick (hs : s.Inv) : (ppuTick s).Inv := by
  obtain ⟨hcfg, hbus, hppu, hp, hdma, hsprites⟩ := hs
  obtain ⟨hppu', hsprites'⟩ := ppuStep_ok s.cfg s.cfg.mirroring s.ppu hppu hsprites
  exact ⟨hcfg, hbus, hppu', hp, hdma, hsprites'⟩

/-- Settles O10: a tick is a dot, which keeps the PPU's memories in form, and perhaps a sub-step: an idle one, where each DMA
cycle takes one of the cycles that the CPU owes for it, or a fetch, whose accesses each keep the invariant. -/
theorem stepKeepsInvariant : Obligations.StepKeepsInvariant := by
  intro s t hs h
  rw [step, systemTick] at h
  split at h
  · split at h
    · exact inv_cpuStep (inv_ppuTick hs) h
    · cases h; exact inv_ppuTick hs
  · cases h; exact hs
  · cases h

end Sys2Proof.Proofs
end

section
/-!
SUPPORT. Which images load, and what the configuration of a loaded image holds.
-/

namespace Sys2Proof.Proofs

open Sys2Proof.Machine Sys2Proof.Claims

/-! ### O13: the header in arithmetic -/

theorem and_lowNibble_eq_zero (b : Byte) : b &&& 0x0F = 0 ↔ b.toNat % 16 = 0 := by
  rw [← BitVec.toNat_inj, BitVec.toNat_and]
  exact iff_of_eq (congrArg (· = 0) (Nat.and_two_pow_sub_one_eq_mod b.toNat 4))

theorem and_highNibble_eq_zero : ∀ b : Byte, b &&& 0xF0 = 0 ↔ b.toNat / 16 = 0 := by decide

theorem shiftRight_four_eq_zero (b : Byte) : b >>> 4 = 0 ↔ b.toNat / 16 = 0 := by
  rw [← BitVec.toNat_inj, BitVec.toNat_ushiftRight, Nat.shiftRight_eq_div_pow]
  rfl

/-- The mapper number is zero when both its nibbles are (R30). -/
theorem mapperOf_eq_zero (image : List Byte) :
    mapperOf image = 0 ↔ (headerByte image 7).toNat / 16 = 0 ∧ (headerByte image 6).toNat / 16 = 0 := by
  rw [mapperOf, ← and_highNibble_eq_zero, ← shiftRight_four_eq_zero]
  exact BitVec.or_eq_zero_iff

theorem byte_getLsbD (b : Byte) (k : Nat) : b.getLsbD k = true ↔ b.toNat / 2 ^ k % 2 = 1 := by
  rw [BitVec.getLsbD, Nat.testBit_eq_decide_div_mod_eq, decide_eq_true_iff]

theorem prgStart_eq (image : List Byte) :
    prgStart image = 16 + (if (headerByte image 6).toNat / 4 % 2 = 1 then 512 else 0) := by
  simp only [prgStart, byte_getLsbD, Nat.reducePow]
  split <;> rfl

theorem mirroringOf_eq (image : List Byte) :
    mirroringOf image =
      (if (headerByte image 6).toNat / 8 % 2 = 1 then .fourScreen
        else if (headerByte image 6).toNat % 2 = 1 then .vertical else .horizontal) := by
  simp only [mirroringOf, byte_getLsbD, Nat.reducePow, Nat.div_one]

/-- One or two banks of 16 KiB (R30). -/
theorem prgSizeOf_eq_some (image : List Byte) (size : PrgSize) :
    prgSizeOf image = some size ↔
      ((headerByte image 4).toNat = 1 ∨ (headerByte image 4).toNat = 2) ∧
        size.bytes = 16384 * (headerByte image 4).toNat := by
  have h1 : headerByte image 4 = 1 ↔ (headerByte image 4).toNat = 1 := BitVec.toNat_inj.symm
  have h2 : headerByte image 4 = 2 ↔ (headerByte image 4).toNat = 2 := BitVec.toNat_inj.symm
  simp only [prgSizeOf, h1, h2]
  split_ifs <;> cases size <;> simp_all [PrgSize.bytes]

/-! ### O13: the load -/

/-- The configuration of an accepted image. -/
def cartridge (brkMode : BrkMode) (maskGating : MaskGating) (image : List Byte) (size : PrgSize) : Config where
  brkMode := brkMode
  maskGating := maskGating
  mirroring := mirroringOf image
  prgSize := size
  prgRom := Memory.ofBytes ((image.drop (prgStart image)).take size.bytes)
  chrRom := Memory.ofBytes ((image.drop (prgStart image + size.bytes)).take chrSize)

/-- No test of the load refuses the image, and its PRG size is `size` (R30, R429). -/
structure Accepted (image : List Byte) (size : PrgSize) : Prop where
  tag : image.take 4 = [0x4E, 0x45, 0x53, 0x1A]
  control : headerByte image 7 &&& 0x0F = 0
  mapper : mapperOf image = 0
  prgSize : prgSizeOf image = some size
  chrSize : headerByte image 5 = 1
  length : prgStart image + size.bytes + 8192 ≤ image.length

/-- An accepted image holds the whole header. -/
theorem Accepted.header_length {image : List Byte} {size : PrgSize} (h : Accepted image size) : ¬image.length < 16 := by
  have := h.length
  rw [prgStart_eq] at this
  omega

/-- A load goes through exactly for an accepted image, and answers its configuration. -/
theorem loadCartridge_eq_ok (brkMode : BrkMode) (maskGating : MaskGating) (image : List Byte) (cfg : Config) :
    loadCartridge brkMode maskGating image = .ok cfg ↔
      ∃ size, Accepted image size ∧ cfg = cartridge brkMode maskGating image size := by
  constructor
  · intro h
    rw [loadCartridge] at h
    cases hsize : prgSizeOf image with
    | none =>
      simp only [hsize] at h
      split_ifs at h
    | some size =>
      simp only [hsize] at h
      split_ifs at h with htag hlen hcontrol hmapper hchr hlength
      cases h
      exact ⟨size, ⟨not_not.1 htag, not_not.1 hcontrol, not_not.1 hmapper, hsize, not_not.1 hchr, not_lt.1 hlength⟩, rfl⟩
  · rintro ⟨size, h, rfl⟩
    have hlength : ¬image.length < prgStart image + size.bytes + chrSize := not_lt.2 h.length
    simp only [loadCartridge, h.tag, h.header_length, h.control, h.mapper, h.prgSize, h.chrSize, hlength, ne_eq,
      not_true_eq_false, if_false]
    rfl

/-- Acceptance in the arithmetic of the header's bytes. -/
theorem accepted_iff (image : List Byte) (size : PrgSize) :
    Accepted image size ↔
      image.take 4 = [0x4E, 0x45, 0x53, 0x1A] ∧ (headerByte image 7).toNat % 16 = 0 ∧
        (headerByte image 7).toNat / 16 = 0 ∧ (headerByte image 6).toNat / 16 = 0 ∧
        ((headerByte image 4).toNat = 1 ∨ (headerByte image 4).toNat = 2) ∧
        size.bytes = 16384 * (headerByte image 4).toNat ∧ (headerByte image 5).toNat = 1 ∧
        prgStart image + size.bytes + 8192 ≤ image.length := by
  have hchr : headerByte image 5 = 1 ↔ (headerByte image 5).toNat = 1 := BitVec.toNat_inj.symm
  rw [← and_lowNibble_eq_zero, ← hchr]
  constructor
  · rintro ⟨htag, hcontrol, hmapper, hsize, hchr, hlength⟩
    obtain ⟨h7, h6⟩ := (mapperOf_eq_zero image).1 hmapper
    obtain ⟨hbanks, hbytes⟩ := (prgSizeOf_eq_some image size).1 hsize
    exact ⟨htag, hcontrol, h7, h6, hbanks, hbytes, hchr, hlength⟩
  · rintro ⟨htag, hcontrol, h7, h6, hbanks, hbytes, hchr, hlength⟩
    exact ⟨htag, hcontrol, (mapperOf_eq_zero image).2 ⟨h7, h6⟩, (prgSizeOf_eq_some image size).2 ⟨hbanks, hbytes⟩, hchr, hlength⟩

/-- One or two banks are one of the two PRG sizes. -/
theorem exists_prgSize {banks : Nat} (h : banks = 1 ∨ banks = 2) : ∃ size : PrgSize, size.bytes = 16384 * banks := by
  rcases h with rfl | rfl
  · exact ⟨.kib16, rfl⟩
  · exact ⟨.kib32, rfl⟩

/-- The memory of a slice of the image reads as the image does. -/
theorem read_ofBytes_slice (image : List Byte) {start size n : Nat} (hn : n < size) :
    (Memory.ofBytes ((image.drop start).take size)).read n = image.getD (start + n) 0 := by
  simp [Memory.read_ofBytes, List.getD_eq_getElem?_getD, List.getElem?_take_of_lt hn, List.getElem?_drop]

theorem memoryOk_ofBytes_slice (image : List Byte) (start size : Nat) :
    MemoryOk (Memory.ofBytes ((image.drop start).take size)) size :=
  ⟨Memory.wf_ofBytes _, Memory.fits_ofBytes _ _ (List.length_take_le _ _)⟩

/-- Settles O13: a load goes through exactly for an accepted image, whose bytes are then read at their offsets. -/
theorem cartridgeLoad : Obligations.CartridgeLoad := by
  intro brkMode maskGating image
  refine ⟨⟨?_, ?_⟩, ?_⟩
  · rintro ⟨cfg, h⟩
    obtain ⟨size, hsize, -⟩ := (loadCartridge_eq_ok _ _ _ _).1 h
    obtain ⟨htag, hcontrol, h7, h6, hbanks, hbytes, hchr, hlength⟩ := (accepted_iff _ _).1 hsize
    rw [prgStart_eq, hbytes] at hlength
    exact ⟨htag, hcontrol, h7, h6, hbanks, hchr, hlength⟩
  · rintro ⟨htag, hcontrol, h7, h6, hbanks, hchr, hlength⟩
    obtain ⟨size, hbytes⟩ := exists_prgSize hbanks
    refine ⟨_, (loadCartridge_eq_ok _ _ _ _).2 ⟨size, (accepted_iff _ _).2 ?_, rfl⟩⟩
    rw [prgStart_eq, hbytes]
    exact ⟨htag, hcontrol, h7, h6, hbanks, rfl, hchr, hlength⟩
  · intro cfg h
    obtain ⟨size, hsize, rfl⟩ := (loadCartridge_eq_ok _ _ _ _).1 h
    obtain ⟨-, -, -, -, -, hbytes, -, -⟩ := (accepted_iff _ _).1 hsize
    have hbytes' : size.bytes = 16384 * (image.getD 4 0).toNat := hbytes
    have hstart : 16 + (if (image.getD 6 0).toNat / 4 % 2 = 1 then 512 else 0) = prgStart image := (prgStart_eq image).symm
    dsimp only
    rw [hstart, ← hbytes']
    exact ⟨rfl, rfl, rfl, mirroringOf_eq image, fun n hn => read_ofBytes_slice image hn,
      fun n hn => read_ofBytes_slice image hn, memoryOk_ofBytes_slice _ _ _, memoryOk_ofBytes_slice _ _ _⟩

end Sys2Proof.Proofs
end

section
/-!
SUPPORT. The CPU's address space: which addresses are one byte, what a write of plain memory leaves there, and what an instruction
leaves of the bytes it does not store to.
-/

namespace Sys2Proof.Proofs

open Sys2Proof.Machine Sys2Proof.Claims

variable {s t : State} {a b : Word}

/-! ### O39: the bytes an instruction does not store to -/

/-- A step changes no byte that the footprint does not store to; reads and changes of the CPU group change none. -/
theorem Touch.peek_eq {F : Footprint} (hF : ∀ e ∈ F.stores, regionOf s.cfg a ≠ regionOf s.cfg e) (h : Touch F s t) :
    peek t a = peek s a := by
  cases h with
  | read _ h => exact (memRead_frame h).peek a
  | write he h => exact peek_after_write h a (hF _ he)
  | cpu h _ => rw [h]; rfl

/-- No step changes the configuration, so the addresses mean the same bytes all along the sequence. -/
theorem Touches.peek_eq {F : Footprint} (hF : ∀ e ∈ F.stores, regionOf s.cfg a ≠ regionOf s.cfg e) (h : Touches F s t) :
    peek t a = peek s a := by
  induction h with
  | refl => rfl
  | tail hfirst hlast ih =>
    rw [← (Touches.frame hfirst).cfg] at hF
    exact (hlast.peek_eq hF).trans ih

/-- Settles O39: an instruction's accesses stay in its footprint, which stores only to the listed addresses. -/
theorem memoryFrame : Obligations.MemoryFrame := by
  intro i s t h a ha
  rw [← footprintOf_stores] at ha
  exact (exec_touches h).peek_eq ha

/-! ### O41: mirrors and PRG ROM -/

theorem regionOf_ram_of_lt (cfg : Config) (ha : a.toNat < 0x2000) : regionOf cfg a = .ram (a.toNat % 0x800) := if_pos ha

/-- A read depends on where the address falls, and on nothing else of it. -/
theorem memRead_congr (h : regionOf s.cfg a = regionOf s.cfg b) : memRead a s = memRead b s := by
  rw [memRead, memRead, h]

/-- A write below PRG ROM depends on where the address falls; a write to PRG ROM has the address in its fault (R80). -/
theorem memWrite_congr (d : Byte) (ha : a.toNat < 0x8000) (h : regionOf s.cfg a = regionOf s.cfg b) :
    memWrite a d s = memWrite b d s := by
  rw [memWrite, memWrite, ← h]
  cases hr : regionOf s.cfg a with
  | prgRom i => exact absurd ((regionOf_prgRom _ _ _).1 hr).1 (Nat.not_le.2 ha)
  | _ => rfl

/-- The mirrors of a RAM byte fall on it (R74). -/
theorem regionOf_ram_mirror (cfg : Config) (ha : a.toNat < 0x2000) :
    regionOf cfg a = regionOf cfg (BitVec.ofNat 16 (a.toNat % 0x800)) := by
  have hb : (BitVec.ofNat 16 (a.toNat % 0x800)).toNat = a.toNat % 0x800 := by
    rw [BitVec.toNat_ofNat]
    omega
  rw [regionOf_ram_of_lt cfg ha, regionOf_ram_of_lt cfg (by omega), hb, Nat.mod_mod]

/-- The mirrors of a PPU register fall on it (R75). -/
theorem regionOf_ppu_mirror (cfg : Config) (ha : IsPpuRegister a) :
    regionOf cfg a = regionOf cfg (BitVec.ofNat 16 (0x2000 + (a.toNat - 0x2000) % 8)) := by
  obtain ⟨hlo, hhi⟩ := ha
  have hb : (BitVec.ofNat 16 (0x2000 + (a.toNat - 0x2000) % 8)).toNat = 0x2000 + (a.toNat - 0x2000) % 8 := by
    rw [BitVec.toNat_ofNat]
    omega
  have hreg : ppuRegOf (0x2000 + (a.toNat - 0x2000) % 8) = ppuRegOf a.toNat := by
    rw [ppuRegOf, ppuRegOf, show (0x2000 + (a.toNat - 0x2000) % 8) % 8 = a.toNat % 8 by omega]
  rw [(regionOf_ppu cfg a _).2 ⟨hlo, hhi, rfl⟩, (regionOf_ppu cfg _ (ppuRegOf a.toNat)).2]
  rw [hb]
  exact ⟨by omega, by omega, hreg⟩

/-- Flipping bit 14 stays in `$8000–$FFFF` and in the place modulo 16 KiB. -/
theorem toNat_xor_bit14 (ha : 0x8000 ≤ a.toNat) :
    0x8000 ≤ (a ^^^ 0x4000).toNat ∧ (a ^^^ 0x4000).toNat % 0x4000 = a.toNat % 0x4000 := by
  have hlow : (a ^^^ 0x4000).toNat % 2 ^ 14 = a.toNat % 2 ^ 14 := by
    rw [BitVec.toNat_xor, Nat.xor_mod_two_pow]
    exact Nat.xor_zero _
  have hhigh : (a ^^^ 0x4000).toNat / 2 ^ 15 = a.toNat / 2 ^ 15 := by
    rw [BitVec.toNat_xor, Nat.xor_div_two_pow]
    exact Nat.xor_zero _
  omega

/-- With 16 KiB of PRG ROM, the two halves of `$8000–$FFFF` are the same bytes (R79). -/
theorem regionOf_prgRom_mirror {cfg : Config} (hsize : cfg.prgSize = .kib16) (ha : 0x8000 ≤ a.toNat) :
    regionOf cfg (a ^^^ 0x4000) = regionOf cfg a := by
  obtain ⟨hb, hmod⟩ := toNat_xor_bit14 ha
  rw [(regionOf_prgRom cfg a _).2 ⟨ha, rfl⟩, regionOf_prgRom]
  rw [show cfg.prgSize.bytes = 0x4000 by rw [hsize]; rfl]
  exact ⟨hb, by omega⟩

/-- Settles O41: an access depends on where its address falls, and the mirrors of an address fall where it does. -/
theorem mirrorsAndRom : Obligations.MirrorsAndRom := by
  refine ⟨fun s a d ha => ⟨?_, ?_, ?_⟩, fun s a d ha => ⟨?_, ?_⟩, fun s a d ha => ?_⟩
  · rw [memRead, regionOf_ram_of_lt _ ha]
  · exact memRead_congr (regionOf_ram_mirror _ ha)
  · exact memWrite_congr d (by omega) (regionOf_ram_mirror _ ha)
  · exact memRead_congr (regionOf_ppu_mirror _ ha)
  · exact memWrite_congr d (by omega) (regionOf_ppu_mirror _ ha)
  · have hrom := (regionOf_prgRom s.cfg a _).2 ⟨ha, rfl⟩
    refine ⟨?_, fun hsize => memRead_congr (regionOf_prgRom_mirror hsize ha), ?_⟩
    · rw [memRead, hrom]
    · rw [memWrite, hrom]

/-! ### O42: plain memory reads back -/

/-- Outside `$2000–$401F` every address is a byte of memory. -/
theorem peek_isSome (s : State) (ha : a.toNat < 0x2000 ∨ 0x4020 ≤ a.toNat) : (peek s a).isSome := by
  simp only [peek, regionOf]
  split_ifs <;> first | rfl | omega

/-- A byte of memory holds what was written to it. -/
theorem peek_after_write_self {d : Byte} (h : memWrite a d s = .done () t) (ha : (peek s a).isSome) : peek t a = some d := by
  rw [peek, (memWrite_frame h).cfg]
  rw [memWrite] at h
  rw [peek] at ha
  cases hr : regionOf s.cfg a <;> rw [hr] at h ha
  case ram | scratch | prgRam =>
    cases h
    exact congrArg some (Memory.read_write_self _ _ d)
  case prgRom => cases h
  all_goals cases ha

/-- Settles O42: a write of plain memory goes through, and is the byte that the next read answers. -/
theorem readAfterWrite : Obligations.ReadAfterWrite := by
  intro s a d ha
  have hplain : a.toNat < 0x2000 ∨ 0x4020 ≤ a.toNat := by omega
  obtain ⟨t, h⟩ := memWrite_done a d s ⟨by omega, fun hport => by obtain ⟨hlo, hhi, -⟩ := hport; omega⟩
  obtain ⟨hppu, hcpu, hbus⟩ := memWrite_plain h hplain
  have hframe := memWrite_frame h
  exact ⟨t, h, memRead_of_peek (peek_after_write_self h (peek_isSome s hplain)), peek_after_write h, hcpu, hframe.cfg, hppu,
    hframe.trace, hbus⟩

end Sys2Proof.Proofs
end

section
/-!
SUPPORT. The PPU's address space: the three ranges of a fetch and the two of a store, and the cell or entry of an address.
-/

namespace Sys2Proof.Proofs

open Sys2Proof.Machine Sys2Proof.Claims

variable {cfg : Config} {p : Ppu} {a : BitVec 14}

/-! ### O52: the ranges -/

theorem ppuFetch_chrRom (ha : a.toNat < 0x2000) : ppuFetch cfg p a = cfg.chrRom.read a.toNat := if_pos ha

theorem ppuFetch_nametable (hlo : 0x2000 ≤ a.toNat) (hhi : a.toNat < 0x3F00) :
    ppuFetch cfg p a = p.vram.read (nametableIndex cfg.mirroring a.toNat) := by
  rw [ppuFetch, if_neg (Nat.not_lt.2 hlo), if_pos hhi]

theorem ppuFetch_palette (ha : 0x3F00 ≤ a.toNat) : ppuFetch cfg p a = p.palette.read (paletteIndex a.toNat) := by
  rw [ppuFetch, if_neg (by omega), if_neg (Nat.not_lt.2 ha)]

theorem ppuStore_nametable (d : Byte) (ha : a.toNat < 0x3F00) :
    ppuStore cfg a d p = { p with vram := p.vram.write (nametableIndex cfg.mirroring a.toNat) d } := if_pos ha

theorem ppuStore_palette (d : Byte) (ha : 0x3F00 ≤ a.toNat) :
    ppuStore cfg a d p = { p with palette := p.palette.write (paletteIndex a.toNat) d } := if_neg (Nat.not_lt.2 ha)

/-! ### O52: cells and entries -/

/-- A A B B (R90). -/
theorem nametableIndex_horizontal (n : Nat) : nametableIndex .horizontal n = n % 4096 / 2048 * 1024 + n % 1024 := by
  simp only [nametableIndex, physicalTable]
  omega

/-- A B A B (R90). -/
theorem nametableIndex_vertical (n : Nat) : nametableIndex .vertical n = n % 2048 := by
  simp only [nametableIndex, physicalTable]
  omega

/-- A B C D (R90). -/
theorem nametableIndex_fourScreen (n : Nat) : nametableIndex .fourScreen n = n % 4096 := by
  simp only [nametableIndex, physicalTable]
  omega

/-- `$3000–$3EFF` are the cells `$1000` lower (R91). -/
theorem nametableIndex_sub_4096 (m : Mirroring) {n : Nat} (hn : 4096 ≤ n) :
    nametableIndex m (n - 4096) = nametableIndex m n := by
  rw [nametableIndex, nametableIndex, show (n - 4096) % 4096 = n % 4096 by omega, show (n - 4096) % 1024 = n % 1024 by omega]

/-- The entry of a palette address, with the four shadows listed (R92). -/
theorem paletteIndex_eq (n : Nat) :
    paletteIndex n = if n % 32 ∈ [0x10, 0x14, 0x18, 0x1C] then n % 32 - 16 else n % 32 := by
  have hshadow : (0x10 ≤ n % 0x20 ∧ n % 4 = 0) ↔ n % 32 ∈ [0x10, 0x14, 0x18, 0x1C] := by
    simp only [List.mem_cons, List.not_mem_nil, or_false]
    omega
  rw [paletteIndex]
  exact if_congr hshadow rfl rfl

/-! ### O52: fetches after stores and through mirrors -/

/-- A byte stored in the nametables or the palette is fetched back. -/
theorem ppuFetch_ppuStore_self (d : Byte) (ha : 0x2000 ≤ a.toNat) : ppuFetch cfg (ppuStore cfg a d p) a = d := by
  by_cases hhi : a.toNat < 0x3F00
  · rw [ppuStore_nametable d hhi, ppuFetch_nametable ha hhi]
    exact Memory.read_write_self _ _ d
  · rw [ppuStore_palette d (Nat.not_lt.1 hhi), ppuFetch_palette (Nat.not_lt.1 hhi)]
    exact Memory.read_write_self _ _ d

theorem ppuFetch_mirror (hlo : 0x3000 ≤ a.toNat) (hhi : a.toNat < 0x3F00) : ppuFetch cfg p a = ppuFetch cfg p (a - 0x1000) := by
  have hsub : (a - 0x1000).toNat = a.toNat - 4096 := BitVec.toNat_sub_of_le (BitVec.le_def.2 (show 4096 ≤ a.toNat by omega))
  rw [ppuFetch_nametable (by omega) hhi, ppuFetch_nametable (by omega) (by omega), hsub, nametableIndex_sub_4096 _ (by omega)]

/-- `$3F10` and `$3F00` are one entry (R92). -/
theorem ppuFetch_shadow (d : Byte) : ppuFetch cfg (ppuStore cfg 0x3F10 d p) 0x3F00 = d := by
  rw [ppuStore_palette d (by decide), ppuFetch_palette (by decide)]
  exact Memory.read_write_self _ 0 d

/-- Settles O52: each range of the address space has its lemma above, and the index there is the one of the statement. -/
theorem ppuAddressSpace : Obligations.PpuAddressSpace := by
  refine ⟨fun cfg p a => ?_, fun cfg p a => ppuFetch_ppuStore_self, fun cfg p a => ppuFetch_mirror,
    fun cfg p => ppuFetch_shadow⟩
  intro n cell entry
  have hcell : cell = nametableIndex cfg.mirroring n := by
    cases hm : cfg.mirroring with
    | horizontal => rw [nametableIndex_horizontal]; simp only [cell, hm]
    | vertical => rw [nametableIndex_vertical]; simp only [cell, hm]
    | fourScreen => rw [nametableIndex_fourScreen]; simp only [cell, hm]
  have hentry : entry = paletteIndex n := (paletteIndex_eq n).symm
  rw [hcell, hentry]
  exact ⟨ppuFetch_chrRom,
    fun hlo hhi => ⟨ppuFetch_nametable hlo hhi, nametableIndex_lt _ _, fun d => ppuStore_nametable d hhi⟩,
    fun hlo => ⟨ppuFetch_palette hlo, paletteIndex_lt _, fun d => ppuStore_palette d hlo⟩⟩

end Sys2Proof.Proofs
end

section
/-!
SUPPORT. The opcode table read from both sides: what the row of an opcode byte makes of the operand bytes (R110 to R113), and
that the encoding of a well-formed instruction is the one list of bytes that a row makes it of.
-/

namespace Sys2Proof.Proofs

open Sys2Proof.Machine Sys2Proof.Claims

variable {op : Byte} {i : Instr} {bytes rest : List Byte} {disp : Int}

/-! ### The displacement byte -/

/-- Sign extension is undone by taking the low byte. -/
@[simp] theorem ofInt_signedByte (b : Byte) : BitVec.ofInt 8 (signedByte b) = b := BitVec.ofInt_toInt

theorem displacementInRange_iff : displacementInRange disp = true ↔ -128 ≤ disp ∧ disp ≤ 127 := by
  rw [displacementInRange, Bool.and_eq_true, decide_eq_true_eq, decide_eq_true_eq]

/-- A displacement in range is the sign extension of its low byte. -/
theorem signedByte_ofInt (h : displacementInRange disp = true) : signedByte (BitVec.ofInt 8 disp) = disp := by
  obtain ⟨hlo, hhi⟩ := displacementInRange_iff.1 h
  rw [signedByte, BitVec.toInt_ofInt]
  exact Int.bmod_eq_of_le (by omega) (by omega)

@[simp] theorem displacementInRange_signedByte (b : Byte) : displacementInRange (signedByte b) = true :=
  displacementInRange_iff.2 ⟨BitVec.le_toInt b, Int.le_of_lt_add_one BitVec.toInt_lt⟩

/-! ### What a row makes -/

/-- The bytes are an opcode with a row and the operand bytes that the row calls for, and the row makes the instruction of
them. -/
inductive RowMakes : List Byte → Instr → Prop
  | alone {op : Byte} {i : Instr} (hrow : rowOf op = some (.alone i)) : RowMakes [op] i
  | oneByte {op : Byte} {make : Byte → Instr} (b : Byte) (hrow : rowOf op = some (.oneByte make)) :
      RowMakes [op, b] (make b)
  | twoBytes {op : Byte} {make : Word → Instr} (lo hi : Byte) (hrow : rowOf op = some (.twoBytes make)) :
      RowMakes [op, lo, hi] (make (wordOf lo hi))

theorem RowMakes.word {make : Word → Instr} (hrow : rowOf op = some (.twoBytes make)) (w : Word) :
    RowMakes (encodeWord op w) (make w) := by
  have h := RowMakes.twoBytes (loByte w) (hiByte w) hrow
  rwa [wordOf_loByte_hiByte] at h

theorem RowMakes.branch {make : Int → Instr} (hrow : rowOf op = some (.branch make))
    (hdisp : displacementInRange disp = true) : RowMakes (encodeBranch op disp) (make disp) := by
  have h := RowMakes.oneByte (BitVec.ofInt 8 disp) hrow
  rwa [signedByte_ofInt hdisp] at h

/-- The decoder answers what the row makes of the bytes at the front of the list, and the bytes after them (R117). -/
theorem decode_eq_ok_iff : decode bytes = .ok (i, rest) ↔ ∃ front, bytes = front ++ rest ∧ RowMakes front i := by
  constructor
  · intro h
    cases bytes with
    | nil => cases h
    | cons op tail =>
      rw [decode.eq_def] at h
      dsimp only at h
      split at h
      case h_2 hrow => cases h; exact ⟨[op], rfl, .alone hrow⟩
      case h_3 b _ hrow => cases h; exact ⟨[op, b], rfl, .oneByte b hrow⟩
      case h_4 lo hi _ hrow => cases h; exact ⟨[op, lo, hi], rfl, .twoBytes lo hi hrow⟩
      all_goals cases h
  · rintro ⟨_, rfl, hmakes⟩
    cases hmakes with
    | alone hrow => simp [decode, hrow]
    | oneByte b hrow => simp [decode, hrow]
    | twoBytes lo hi hrow => simp [decode, hrow]

/-! ### The table against the encoder -/

/-- The instruction is well formed and these are its bytes. -/
def EncodedBy (bytes : List Byte) (i : Instr) : Prop := i.wellFormed = true ∧ encode i = bytes

/-- The row of an opcode makes well-formed instructions only, encoded by the opcode and the operand bytes. -/
def RowEncodes (op : Byte) : Template → Prop
  | .alone i => EncodedBy [op] i
  | .oneByte make => ∀ b, EncodedBy [op, b] (make b)
  | .twoBytes make => ∀ lo hi, EncodedBy [op, lo, hi] (make (wordOf lo hi))

/-- Each row of R113 against the encoder. -/
theorem rowEncodes_of_rowOf {row : Template} (h : rowOf op = some row) : RowEncodes op row := by
  obtain ⟨n, hn⟩ : ∃ n, op.toNat = n := ⟨_, rfl⟩
  obtain rfl : op = BitVec.ofNat 8 n := by rw [← hn, BitVec.ofNat_toNat, BitVec.setWidth_eq]
  rw [rowOf, hn] at h
  split at h <;> cases h <;>
    simp [RowEncodes, EncodedBy, Template.branch, Instr.wellFormed, encode, encodeWord, encodeBranch]

/-- The row of each instruction, by its operand: none, a byte, a word or a displacement. -/
theorem rowMakes_encode (h : i.wellFormed = true) : RowMakes (encode i) i := by
  cases i with
  | bpl | bmi | bvc | bvs | bcc | bcs | bne | beq => exact .branch rfl h
  | ldaAbs | ldaAbsX | ldaAbsY | ldxAbs | ldxAbsY | ldyAbs | ldyAbsX | staAbs | staAbsX | staAbsY | stxAbs | styAbs
  | adcAbs | adcAbsX | adcAbsY | sbcAbs | sbcAbsX | sbcAbsY | andAbs | andAbsX | andAbsY | oraAbs | oraAbsX | oraAbsY
  | eorAbs | eorAbsX | eorAbsY | bitAbs | incAbs | incAbsX | decAbs | decAbsX | aslAbs | aslAbsX | lsrAbs | lsrAbsX
  | rolAbs | rolAbsX | rorAbs | rorAbsX | cmpAbs | cmpAbsX | cmpAbsY | cpxAbs | cpyAbs | jmpAbs | jmpInd | jsr =>
    exact .word rfl _
  | tax | tay | tsx | txa | txs | tya | pha | php | pla | plp | inx | iny | dex | dey | aslAcc | lsrAcc | rolAcc | rorAcc
  | rts | clc | cld | cli | clv | sec | sed | sei | nop | brk | rti => exact .alone rfl
  | _ => exact .oneByte _ rfl

/-- The rows make an instruction of its encoding and of no other bytes. -/
theorem rowMakes_iff : RowMakes bytes i ↔ EncodedBy bytes i := by
  constructor
  · intro h
    cases h with
    | alone hrow => exact rowEncodes_of_rowOf hrow
    | oneByte b hrow => exact rowEncodes_of_rowOf hrow b
    | twoBytes lo hi hrow => exact rowEncodes_of_rowOf hrow lo hi
  · rintro ⟨hwf, rfl⟩
    exact rowMakes_encode hwf

/-- The decoder and the encoder agree. -/
theorem decode_eq_ok_iff_encode :
    decode bytes = .ok (i, rest) ↔ i.wellFormed = true ∧ encode i ++ rest = bytes := by
  simp only [decode_eq_ok_iff, rowMakes_iff, EncodedBy]
  exact ⟨fun ⟨_, hbytes, hwf, henc⟩ => ⟨hwf, henc ▸ hbytes.symm⟩, fun ⟨hwf, hbytes⟩ => ⟨_, hbytes.symm, hwf, rfl⟩⟩

/-- Settles O1: the row of each instruction makes it of its encoding. -/
theorem decodeInvertsEncode : Obligations.DecodeInvertsEncode :=
  fun _ _ hwf => decode_eq_ok_iff_encode.2 ⟨hwf, rfl⟩

/-- Settles O2: each row makes instructions of their own encodings. -/
theorem encodeInvertsDecode : Obligations.EncodeInvertsDecode :=
  fun _ _ _ => decode_eq_ok_iff_encode.1

/-! ### Opcodes with no row -/

/-- The rows of R113 and the list of R115 share the 256 opcode bytes out between them. -/
theorem rowOf_isNone : ∀ op : Byte, (rowOf op).isNone = decide (op.toNat ∈ illegalOpcodes) := by decide

theorem rowOf_eq_none_iff : rowOf op = none ↔ op.toNat ∈ illegalOpcodes := by
  rw [← Option.isNone_iff_eq_none, rowOf_isNone, decide_eq_true_eq]

/-- A byte with no row is rejected by name (R115). -/
theorem decode_illegal (h : rowOf op = none) : decode (op :: rest) = .error (.illegalOpcode op) := by
  simp [decode, h]

/-- Two bytes after the opcode are enough for any row (R110). -/
theorem decode_three_bytes {row : Template} (h : rowOf op = some row) (b1 b2 : Byte) :
    ∃ i rest, decode [op, b1, b2] = .ok (i, rest) := by
  cases row with
  | alone i => exact ⟨i, [b1, b2], decode_eq_ok_iff.2 ⟨[op], rfl, .alone h⟩⟩
  | oneByte make => exact ⟨make b1, [b2], decode_eq_ok_iff.2 ⟨[op, b1], rfl, .oneByte b1 h⟩⟩
  | twoBytes make => exact ⟨make (wordOf b1 b2), [], decode_eq_ok_iff.2 ⟨[op, b1, b2], rfl, .twoBytes b1 b2 h⟩⟩

/-- Fetching a byte with no row faults with its trace line emitted (R115, R424). -/
theorem executeOne_illegal {s s1 : State} (h : rowOf op = none) (hread : memRead s.cpu.pc s = .done op s1) :
    executeOne s = .next (faultedWith (.unknownOpcode op s.cpu.pc) (emitTrace op s1)) := by
  have hcpu : s1.cpu = s.cpu := (memRead_frame hread).cpu
  simp only [executeOne, fetch, hread, Access.andThen, h, hcpu]
  rfl

/-- Settles O3: the illegal opcodes are the ones with no row. -/
theorem illegalOpcodes : Obligations.IllegalOpcodes := by
  refine ⟨rfl, fun op rest hop => decode_illegal (rowOf_eq_none_iff.2 hop), fun op b1 b2 hop => ?_,
    fun op s s1 hop => executeOne_illegal (rowOf_eq_none_iff.2 hop)⟩
  obtain ⟨row, hrow⟩ := Option.ne_none_iff_exists'.1 (mt rowOf_eq_none_iff.1 hop)
  exact decode_three_bytes hrow b1 b2

/-! ### Sample words -/

/-- Settles O4: each word is the encoding of its instruction. -/
theorem sampleWordsDecode : Obligations.SampleWordsDecode := by
  refine ⟨?_, ?_, ?_, ?_, ?_, ?_, ?_, ?_, ?_, ?_, ?_⟩
  all_goals exact decode_eq_ok_iff_encode.2 ⟨rfl, rfl⟩

end Sys2Proof.Proofs
end

section
/-!
SUPPORT. CPU sub-steps: what an idle one does by the kind of DMA cycle it makes (R131, R307), what sub-steps add to `cycles`
(R156, R157), and a fetch sub-step from the bytes that it reads (R132, R133).
-/

namespace Sys2Proof.Proofs

open Sys2Proof.Machine Sys2Proof.Claims

variable {s t : State}

/-! ### The two kinds of sub-step -/

/-- A running machine that owes cycles idles (R131). -/
theorem cpuStep_eq_idleStep (hrun : s.cpu.runStatus = .running) (howed : 0 < s.cpu.idleCycles) : cpuStep s = idleStep s := by
  rw [cpuStep, hrun]
  exact if_pos howed

/-- A running machine that owes none fetches (R132). -/
theorem cpuStep_eq_fetchStep (hrun : s.cpu.runStatus = .running) (hnone : s.cpu.idleCycles = 0) : cpuStep s = fetchStep s := by
  rw [cpuStep, hrun]
  exact if_neg (by omega)

theorem fetchStep_eq_counted (s : State) :
    fetchStep s = counted (executeOne (if s.bus.nmiGenerated then nmiEntry s else s)) := by
  rw [fetchStep]
  cases executeOne (if s.bus.nmiGenerated then nmiEntry s else s) <;> rfl

/-! ### One DMA cycle -/

theorem dmaCycle_align (halign : 0 < s.bus.dma.align) :
    dmaCycle s = .done () (s.mapBus fun b => { b with dma := { b.dma with align := b.dma.align - 1 } }) := by
  rw [dmaCycle, if_pos halign]

/-- The source address of a read cycle (R307): the page in the high byte and the count, which is a byte, in the low one. -/
theorem dmaSource_eq (page : Byte) {count : Nat} (hcount : count < 256) :
    wordOf 0 page ||| BitVec.ofNat 16 count = BitVec.ofNat 16 (256 * page.toNat + count) := by
  apply BitVec.eq_of_toNat_eq
  have hpage := page.isLt
  rw [BitVec.toNat_or, wordOf_toNat, BitVec.toNat_ofNat, BitVec.toNat_ofNat, Nat.mod_eq_of_lt (by omega : count < 2 ^ 16),
    Nat.mod_eq_of_lt (by omega : 256 * page.toNat + count < 2 ^ 16)]
  simpa using (Nat.two_pow_add_eq_or_of_lt (i := 8) hcount page.toNat).symm

theorem dmaCycle_read (halign : s.bus.dma.align = 0) (hphase : s.bus.dma.phase = .read) (hcount : s.bus.dma.count < 256) :
    dmaCycle s =
      (memRead (BitVec.ofNat 16 (256 * s.bus.dma.page.toNat + s.bus.dma.count)) s).andThen fun byte s1 =>
        .done () (s1.mapBus fun b => { b with dma := { b.dma with latch := byte, phase := .write } }) := by
  rw [← dmaSource_eq _ hcount, dmaCycle, if_neg (by omega), hphase]

theorem dmaCycle_write (halign : s.bus.dma.align = 0) (hphase : s.bus.dma.phase = .write)
    (hactive : s.bus.dma.active = true) :
    dmaCycle s =
      .done ()
        { s with
          ppu := { s.ppu with
            oam := s.ppu.oam.write s.ppu.oamAddr.toNat s.bus.dma.latch
            oamAddr := BitVec.ofNat 8 (s.ppu.oamAddr.toNat + 1) }
          bus := { s.bus with dma := { s.bus.dma with
            count := s.bus.dma.count + 1
            phase := .read
            active := decide (s.bus.dma.count + 1 ≠ 256) } } } := by
  have haddr : BitVec.ofNat 8 (s.ppu.oamAddr.toNat + 1) = s.ppu.oamAddr + 1 := by
    simp [BitVec.ofNat_add]
  have hstill : decide (s.bus.dma.count + 1 ≠ 256) = (s.bus.dma.active && decide (s.bus.dma.count + 1 ≠ 256)) := by
    rw [hactive, Bool.true_and]
  rw [dmaCycle, if_neg (by omega), hphase, haddr, hstill]
  rfl

/-- A DMA cycle changes no CPU register and no count (R131). -/
theorem dmaCycle_cpu (s : State) : Lands (fun t => t.cpu = s.cpu) (dmaCycle s) := by
  rw [dmaCycle]
  split
  · rfl
  · split
    · exact (memRead_lands (P := fun t => t.cpu = s.cpu) _ s rfl fun _ _ hread => (memRead_frame hread).cpu).andThen
        fun _ _ h => h
    · rfl

/-! ### O46: idle sub-steps -/

theorem idleStep_no_dma (hactive : s.bus.dma.active = false) : idleStep s = .next (idled s) := by
  rw [idleStep, hactive]
  rfl

theorem idleStep_dma_done (hactive : s.bus.dma.active = true) (hcycle : dmaCycle s = .done () t) :
    idleStep s = .next (idled t) := by
  rw [idleStep, if_pos hactive, hcycle]
  rfl

theorem idleStep_dma_stopped {f : Fault} (hactive : s.bus.dma.active = true) (hcycle : dmaCycle s = .stopped f t) :
    idleStep s = .next (t.stopWith f) := by
  rw [idleStep, if_pos hactive, hcycle]
  rfl

/-- Settles O46: an idle sub-step is the DMA cycle of its kind, if a DMA is active, and then the passing of one owed cycle. -/
theorem idleSubStep : Obligations.IdleSubStep := by
  intro s hrun howed
  rw [cpuStep_eq_idleStep hrun howed]
  refine ⟨idleStep_no_dma, fun hactive halign => idleStep_dma_done hactive (dmaCycle_align halign),
    fun hactive halign hphase hcount => ⟨fun v u hread => ?_, fun f u hread => ?_⟩,
    fun hactive halign hphase => idleStep_dma_done hactive (dmaCycle_write halign hphase hactive)⟩
  · obtain ⟨-, -, -, hdma⟩ := ReadFrame.memories (memRead_frame hread)
    have hcycle := dmaCycle_read halign hphase hcount
    rw [hread] at hcycle
    rw [idleStep_dma_done hactive hcycle, ← hdma]
    rfl
  · have hcycle := dmaCycle_read halign hphase hcount
    have hspec := memRead_spec (BitVec.ofNat 16 (256 * s.bus.dma.page.toNat + s.bus.dma.count)) s
    rw [hread] at hcycle hspec
    obtain ⟨-, -, rfl⟩ := hspec
    exact idleStep_dma_stopped hactive hcycle

/-! ### O8: what a sub-step adds to `cycles` -/

theorem unfaulted_of_running (hrun : s.cpu.runStatus = .running) : s.unfaulted = true := by
  rw [State.unfaulted, hrun]

/-- An idle sub-step passes one owed cycle, or it faults with the counts as they were (R131, R418). -/
theorem idleStep_cpu (h : idleStep s = .next t) : t.cpu = (idled s).cpu ∨ ∃ f, t.cpu = (s.stopWith f).cpu := by
  by_cases hactive : s.bus.dma.active = true
  · have hcpu := dmaCycle_cpu s
    cases hcycle : dmaCycle s with
    | done v u =>
      rw [hcycle] at hcpu
      rw [idleStep_dma_done hactive hcycle] at h
      cases h
      exact .inl (congrArg (fun c : Cpu => { c with idleCycles := c.idleCycles - 1, cycles := c.cycles + 1 }) hcpu)
    | stopped f u =>
      rw [hcycle] at hcpu
      rw [idleStep_dma_stopped hactive hcycle] at h
      cases h
      exact .inr ⟨f, congrArg (fun c : Cpu => { c with runStatus := .faulted f }) hcpu⟩
  · rw [idleStep_no_dma (Bool.eq_false_iff.2 hactive)] at h
    cases h
    exact .inl rfl

theorem idleStep_cycles (hrun : s.cpu.runStatus = .running) (h : idleStep s = .next t) :
    t.cpu.cycles = s.cpu.cycles + (if t.unfaulted then 1 else 0) := by
  rcases idleStep_cpu h with hcpu | ⟨f, hcpu⟩
  · rw [State.unfaulted, hcpu]
    simp [idled, hrun]
  · rw [State.unfaulted, hcpu]
    simp

/-- The fetch's accesses and the instruction leave the count of sub-steps alone (R156). -/
theorem executeOne_cycles (h : executeOne s = .next t) : t.cpu.cycles = s.cpu.cycles := by
  refine executeOne_keeps (P := fun u => u.cpu.cycles = s.cpu.cycles) (fetch_lands ?_ (fun _ hs => hs) rfl) ?_
    (fun _ hs => hs) h
  · exact fun hs hread => (congrArg Cpu.cycles (memRead_frame hread).cpu).trans hs
  · exact fun hs hexec => (exec_touches hexec).cpuKeeps.cycles.trans hs

theorem countCompleted_cycles (s : State) :
    (countCompleted s).cpu.cycles = s.cpu.cycles + (if (countCompleted s).unfaulted then 1 else 0) := by
  rw [countCompleted]
  split <;> simp [State.unfaulted, *]

theorem fetchStep_cycles (h : fetchStep s = .next t) :
    t.cpu.cycles = s.cpu.cycles + (if t.unfaulted then 1 else 0) := by
  have hentry : (if s.bus.nmiGenerated then nmiEntry s else s).cpu.cycles = s.cpu.cycles := by
    split <;> rfl
  rw [fetchStep_eq_counted] at h
  cases hone : executeOne (if s.bus.nmiGenerated then nmiEntry s else s) with
  | next u =>
    rw [hone] at h
    cases h
    rw [countCompleted_cycles, executeOne_cycles hone, hentry]
  | fault f => rw [hone] at h; cases h
  | refused r => rw [hone] at h; cases h

theorem cpuStep_cycles (hrun : s.cpu.runStatus = .running) (h : cpuStep s = .next t) :
    t.cpu.cycles = s.cpu.cycles + (if t.unfaulted then 1 else 0) := by
  rcases Nat.eq_zero_or_pos s.cpu.idleCycles with hnone | howed
  · exact fetchStep_cycles (cpuStep_eq_fetchStep hrun hnone ▸ h)
  · exact idleStep_cycles hrun (cpuStep_eq_idleStep hrun howed ▸ h)

/-! ### O8: draining the owed cycles -/

/-- A stopped machine drains nothing (R157). -/
theorem drainIdle_stopped (n : Nat) (hstopped : s.cpu.runStatus ≠ .running) : drainIdle n s = .next s := by
  cases n with
  | zero => rfl
  | succ n => exact if_neg fun h => hstopped h.2

/-- As many idle sub-steps as cycles are owed leave none owed and count each one, if the machine still runs after them. -/
theorem drainIdle_cycles {n : Nat} (howed : s.cpu.idleCycles = n) (h : drainIdle n s = .next t)
    (hrun : t.cpu.runStatus = .running) : t.cpu.idleCycles = 0 ∧ t.cpu.cycles = s.cpu.cycles + n := by
  induction n generalizing s with
  | zero =>
    cases h
    exact ⟨howed, rfl⟩
  | succ n ih =>
    by_cases hruns : s.cpu.runStatus = .running
    · rw [drainIdle, if_pos ⟨by omega, hruns⟩, cpuStep_eq_idleStep hruns (by omega)] at h
      cases hidle : idleStep s with
      | next u =>
        rw [hidle] at h
        rcases idleStep_cpu hidle with hcpu | ⟨f, hcpu⟩
        · have hless : u.cpu.idleCycles = n := by rw [hcpu]; exact Nat.sub_eq_of_eq_add howed
          obtain ⟨hnone, hcycles⟩ := ih hless h
          refine ⟨hnone, ?_⟩
          rw [hcycles, hcpu]
          exact Nat.add_right_comm s.cpu.cycles 1 n
        · have hstopped : u.cpu.runStatus ≠ .running := by rw [hcpu]; exact nofun
          dsimp only at h
          rw [drainIdle_stopped n hstopped] at h
          cases h
          exact absurd hrun hstopped
      | fault f => rw [hidle] at h; cases h
      | refused r => rw [hidle] at h; cases h
    · rw [drainIdle_stopped _ hruns] at h
      cases h
      exact absurd hrun hruns

/-- Settles O8: a sub-step counts itself unless it faults, and after the first one run_instruction only drains. -/
theorem cycleCount : Obligations.CycleCount := by
  refine ⟨fun s t => cpuStep_cycles, fun s u t hfirst h hrun => ?_⟩
  rw [runInstruction, hfirst] at h
  exact drainIdle_cycles rfl h hrun

/-! ### O5: the instruction at PC -/

/-- No bus read looks at the trace. -/
theorem memRead_with_trace {a : Word} {v : Byte} (l : List TraceLine) (h : memRead a s = .done v t) :
    memRead a { s with trace := l } = .done v { t with trace := l } := by
  rw [memRead] at h ⊢
  dsimp only
  cases hr : regionOf s.cfg a with
  | ppu r =>
    rw [hr] at h
    cases r
    case data =>
      dsimp only [ppuRegRead, readData] at h ⊢
      split_ifs at h ⊢ <;> cases h <;> rfl
    all_goals
      cases h
      rfl
  | _ =>
    rw [hr] at h
    cases h
    rfl

theorem memRead_emitTrace {a : Word} {v : Byte} {op : Byte} (h : memRead a s = .done v t) :
    memRead a (emitTrace op s) = .done v (emitTrace op t) := by
  obtain ⟨hcpu, -, htrace, -, -⟩ := memRead_frame h
  rw [emitTrace, memRead_with_trace _ h, emitTrace, hcpu, htrace]

/-- Bus reads leave the CPU group and the trace alone. -/
theorem ReadsBytes.cpu_trace {bytes : List Byte} {a : Word} (h : ReadsBytes bytes a s t) :
    t.cpu = s.cpu ∧ t.trace = s.trace := by
  induction bytes generalizing a s with
  | nil =>
    cases h
    exact ⟨rfl, rfl⟩
  | cons b rest ih =>
    obtain ⟨s1, hread, hrest⟩ := h
    obtain ⟨hcpu, -, htrace, -, -⟩ := memRead_frame hread
    obtain ⟨hcpu', htrace'⟩ := ih hrest
    exact ⟨hcpu'.trans hcpu, htrace'.trans htrace⟩

/-- `fetch` reads the bytes that its opcode's row calls for; the trace line, emitted after the first, does not change what the
others are (R112, R133, R424). -/
theorem fetch_of_readsBytes {op : Byte} {more : List Byte} {i : Instr} (hmakes : RowMakes (op :: more) i)
    (h : ReadsBytes (op :: more) s.cpu.pc s t) : fetch s = .done i (emitTrace op t) := by
  obtain ⟨s1, hop, hmore⟩ := h
  have hcpu := (memRead_frame hop).cpu
  cases hmakes with
  | alone hrow =>
    cases hmore
    simp only [fetch, hop, Access.andThen, hrow, readOperands]
  | oneByte b hrow =>
    obtain ⟨s2, hb, rfl⟩ := hmore
    simp only [fetch, hop, Access.andThen, hrow, readOperands, emitTrace_cpu, hcpu, memRead_emitTrace hb]
  | twoBytes lo hi hrow =>
    obtain ⟨s2, hlo, s3, hhi, rfl⟩ := hmore
    simp only [fetch, hop, Access.andThen, hrow, readOperands, emitTrace_cpu, hcpu, read16, memRead_emitTrace hlo,
      memRead_emitTrace hhi]

/-- A fetch whose bytes decode runs the instruction where the reads left the machine, the trace line added (R133, R424). -/
theorem executeOne_of_readsBytes {op : Byte} {more : List Byte} {i : Instr} (hdecode : decode (op :: more) = .ok (i, []))
    (h : ReadsBytes (op :: more) s.cpu.pc s t) :
    executeOne s = exec i { t with trace := traceLine op s.cpu :: s.trace } := by
  obtain ⟨front, hfront, hmakes⟩ := decode_eq_ok_iff.1 hdecode
  rw [List.append_nil] at hfront
  obtain ⟨hcpu, htrace⟩ := ReadsBytes.cpu_trace h
  rw [executeOne, fetch_of_readsBytes (hfront ▸ hmakes) h, emitTrace, hcpu, htrace]

/-- Settles O5: a tick with a sub-step that owes nothing is a fetch after the PPU's part, and the fetch reads the bytes that
decode to the instruction. -/
theorem stepRunsTheDecodedInstruction : Obligations.StepRunsTheDecodedInstruction := by
  intro s t op more i hrun hdiv hnone hdecode p q hreads
  rw [step, systemTick, hrun]
  dsimp only
  rw [if_pos (Fin.ext hdiv), cpuStep_eq_fetchStep (s := ppuTick s) hrun hnone, fetchStep_eq_counted]
  exact congrArg counted (executeOne_of_readsBytes hdecode hreads)

end Sys2Proof.Proofs
end

section
/-!
SUPPORT. The loads and the stores (R170 to R175): what a decoded form of the immediate, the read and the write class does, once
for all addressing modes, and then the effects of LDA, LDX and LDY.
-/

namespace Sys2Proof.Proofs

open Sys2Proof.Machine Sys2Proof.Claims

variable {op : Byte} {i : Instr} {s u : State}

/-! ### The rows with an operand -/

theorem decodesByte_of_rowOf {make : Byte → Instr} (hrow : rowOf op = some (.oneByte make)) : DecodesByte op make :=
  fun b _ => decode_eq_ok_iff.2 ⟨[op, b], rfl, .oneByte b hrow⟩

/-- The operand word is little-endian (R112). -/
theorem wordOf_eq_ofNat (lo hi : Byte) : wordOf lo hi = BitVec.ofNat 16 (lo.toNat + 256 * hi.toNat) := by
  rw [← wordOf_toNat, BitVec.ofNat_toNat, BitVec.setWidth_eq]

theorem decodesWord_of_rowOf {make : Word → Instr} (hrow : rowOf op = some (.twoBytes make)) : DecodesWord op make := by
  intro lo hi rest
  rw [← wordOf_eq_ofNat]
  exact decode_eq_ok_iff.2 ⟨[op, lo, hi], rfl, .twoBytes lo hi hrow⟩

/-! ### The cycles owed -/

theorem hiByte_eq_iff (v w : Word) : hiByte v = hiByte w ↔ v.toNat / 256 = w.toNat / 256 := by
  rw [← BitVec.toNat_inj, hiByte_toNat, hiByte_toNat]

/-- The penalty of an indexed address is the page cross of the statements (R136). -/
theorem penalty_indexed (base : Word) (index : Byte) : penalty true (indexed base index) = crossing base index := by
  have hcrossed : (indexed base index).crossed = true ↔ ¬base.toNat / 256 = (indexedBy base index).toNat / 256 := by
    rw [← indexed_addr, ← hiByte_eq_iff]
    exact bne_iff_ne
  rw [penalty, crossing, Bool.true_and]
  simp only [hcrossed, ite_not]

/-- The idle cycles of a read-class row in this mode: one less than its cycles, and the page cross where the row has it
(R113, R135, R136). -/
def Mode.readIdle : Mode → State → Nat
  | .zp _, _ => 2
  | .zpX _, _ | .zpY _, _ | .abs _, _ => 3
  | .absX w, s => 3 + crossing w s.cpu.x
  | .absY w, s => 3 + crossing w s.cpu.y
  | .indX _, _ => 5
  | .indY b, s => 4 + crossing (pointerAt s b.toNat) s.cpu.y

/-- What the model charges after a read is what the statements count. -/
theorem Mode.readIdle_eq (mode : Mode) (s : State) :
    mode.readCycles - 1 + penalty mode.pageCross (mode.operand s) = mode.readIdle s := by
  cases mode with
  | zp | zpX | zpY | abs | indX => rfl
  | absX w => exact congrArg (3 + ·) (penalty_indexed w s.cpu.x)
  | absY w => exact congrArg (3 + ·) (penalty_indexed w s.cpu.y)
  | indY b =>
    rw [Mode.operand, modeIndY, zeroPageWord_eq b s b.toNat (Nat.mod_eq_of_lt b.isLt).symm]
    exact congrArg (4 + ·) (penalty_indexed (pointerAt s b.toNat) s.cpu.y)

/-! ### What the classes do -/

/-- An operation on A, X, Y, SP and P, and then the end of the instruction (R134, R135). -/
theorem advance_ends (hu : u = { s with cpu :=
      { s.cpu with a := u.cpu.a, x := u.cpu.x, y := u.cpu.y, sp := u.cpu.sp, p := u.cpu.p } })
    (len : Word) (idle : Nat) : Ends len.toNat idle s (advance len idle u) := by
  rw [hu]
  exact ⟨BitVec.add_def s.cpu.pc len, rfl, rfl, rfl, rfl, rfl, rfl, rfl⟩

theorem ReadOp.advance_apply_ends (op : ReadOp) (m : Byte) (s : State) (len : Word) (idle : Nat) :
    Ends len.toNat idle s (advance len idle (op.apply m s)) := by
  refine advance_ends ?_ len idle
  rw [op.apply_frame]

/-- The operation, followed by the end of the instruction, does to the CPU group what the effect says. -/
def ReadOp.HasEffect (op : ReadOp) (effect : Effect) : Prop :=
  ∀ (m : Byte) (s : State) (len : Word) (idle : Nat), effect m s.cpu (advance len idle (op.apply m s)).cpu

section
variable {rop : ReadOp} {effect : Effect}

theorem immediateForm_of_class {m : Byte} (h : rop.HasEffect effect) (hi : classOf i = .immediate rop m) (s : State) :
    ImmediateForm effect i m s := by
  refine ⟨advance 2 1 (rop.apply m s), ?_, h m s 2 1, rop.advance_apply_ends m s 2 1⟩
  rw [exec_eq_run, hi]
  rfl

theorem readForm_of_class (mode : Mode) (h : rop.HasEffect effect) (hi : classOf i = .read rop mode) (s : State) :
    ReadForm effect i mode.length.toNat (mode.readIdle s) (mode.address s) s := by
  rw [ReadForm, exec_eq_run, hi, InstrClass.run, ← mode.readIdle_eq, ← mode.operand_addr]
  refine ⟨fun hreadable => ?_, fun hreadable => runRead_stopped hreadable⟩
  obtain ⟨m, s1, hread⟩ := memRead_done _ _ hreadable
  have hcpu : s1.cpu = s.cpu := (memRead_frame hread).cpu
  exact ⟨m, s1, _, hread, runRead_done hread, hcpu ▸ h m s1 _ _, hcpu, rop.advance_apply_ends m s1 _ _⟩

end

/-- A bus write changes no register, only the cycles owed (R306). -/
theorem WriteFrame.registers (h : WriteFrame s u) :
    u.cpu.a = s.cpu.a ∧ u.cpu.x = s.cpu.x ∧ u.cpu.y = s.cpu.y ∧ u.cpu.sp = s.cpu.sp ∧ u.cpu.p = s.cpu.p ∧
      u.cpu.pc = s.cpu.pc := by
  rw [h.cpu]
  exact ⟨rfl, rfl, rfl, rfl, rfl, rfl⟩

theorem writeForm_of_class (r : Reg) (mode : Mode) (hi : classOf i = .write r mode) (s : State) :
    WriteForm i mode.length.toNat (mode.writeCycles - 1) (mode.address s) (r.get s.cpu) s := by
  rw [WriteForm, exec_eq_run, hi, InstrClass.run, ← mode.operand_addr]
  refine ⟨fun hwritable => ?_, fun hwritable => runWrite_stopped hwritable⟩
  obtain ⟨s1, hwrite⟩ := memWrite_done _ (r.get s.cpu) _ hwritable
  obtain ⟨ha, hx, hy, hsp, hp, hpc⟩ := WriteFrame.registers (memWrite_frame hwrite)
  exact ⟨s1, _, hwrite, runWrite_done hwrite, ha, hx, hy, hsp, hp, hpc, advance_ends rfl _ _⟩

/-! ### The effects of the loads -/

theorem znOf_setZN (v p : Byte) : ZnOf v (setZN v p) := by
  rw [ZnOf, getLsbD_setZN v p 1 (by decide), getLsbD_setZN v p 7 (by decide)]
  exact ⟨byte_beq_zero v, byte_bit7 v⟩

theorem keepsBits_setZN (v p : Byte) : KeepsBits [1, 7] p (setZN v p) :=
  ((FlagChange.refl [1, 7] p).setZN v (by decide) (by decide)).flags

theorem lda_hasEffect : ReadOp.lda.HasEffect ldaEffect :=
  fun m _ _ _ => ⟨rfl, rfl, rfl, rfl, znOf_setZN m _, keepsBits_setZN m _⟩

theorem ldx_hasEffect : ReadOp.ldx.HasEffect ldxEffect :=
  fun m _ _ _ => ⟨rfl, rfl, rfl, rfl, znOf_setZN m _, keepsBits_setZN m _⟩

theorem ldy_hasEffect : ReadOp.ldy.HasEffect ldyEffect :=
  fun m _ _ _ => ⟨rfl, rfl, rfl, rfl, znOf_setZN m _, keepsBits_setZN m _⟩

/-! ### The forms -/

/-- Settles O14: the row and the class of each form of LDA. -/
protected theorem loadA : Obligations.LoadA := by
  refine ⟨⟨decodesByte_of_rowOf rfl, decodesByte_of_rowOf rfl, decodesByte_of_rowOf rfl, decodesWord_of_rowOf rfl,
    decodesWord_of_rowOf rfl, decodesWord_of_rowOf rfl, decodesByte_of_rowOf rfl, decodesByte_of_rowOf rfl⟩,
    fun s => ⟨fun m => ?_, fun b => ?_, fun b => ?_, fun w => ?_, fun w => ?_, fun w => ?_, fun b => ?_, fun b => ?_⟩⟩
  · exact immediateForm_of_class lda_hasEffect rfl s
  · exact readForm_of_class (.zp b) lda_hasEffect rfl s
  · exact readForm_of_class (.zpX b) lda_hasEffect rfl s
  · exact readForm_of_class (.abs w) lda_hasEffect rfl s
  · exact readForm_of_class (.absX w) lda_hasEffect rfl s
  · exact readForm_of_class (.absY w) lda_hasEffect rfl s
  · exact readForm_of_class (.indX b) lda_hasEffect rfl s
  · exact readForm_of_class (.indY b) lda_hasEffect rfl s

/-- Settles O15: the row and the class of each form of LDX. -/
protected theorem loadX : Obligations.LoadX := by
  refine ⟨⟨decodesByte_of_rowOf rfl, decodesByte_of_rowOf rfl, decodesByte_of_rowOf rfl, decodesWord_of_rowOf rfl,
    decodesWord_of_rowOf rfl⟩, fun s => ⟨fun m => ?_, fun b => ?_, fun b => ?_, fun w => ?_, fun w => ?_⟩⟩
  · exact immediateForm_of_class ldx_hasEffect rfl s
  · exact readForm_of_class (.zp b) ldx_hasEffect rfl s
  · exact readForm_of_class (.zpY b) ldx_hasEffect rfl s
  · exact readForm_of_class (.abs w) ldx_hasEffect rfl s
  · exact readForm_of_class (.absY w) ldx_hasEffect rfl s

/-- Settles O16: the row and the class of each form of LDY. -/
protected theorem loadY : Obligations.LoadY := by
  refine ⟨⟨decodesByte_of_rowOf rfl, decodesByte_of_rowOf rfl, decodesByte_of_rowOf rfl, decodesWord_of_rowOf rfl,
    decodesWord_of_rowOf rfl⟩, fun s => ⟨fun m => ?_, fun b => ?_, fun b => ?_, fun w => ?_, fun w => ?_⟩⟩
  · exact immediateForm_of_class ldy_hasEffect rfl s
  · exact readForm_of_class (.zp b) ldy_hasEffect rfl s
  · exact readForm_of_class (.zpX b) ldy_hasEffect rfl s
  · exact readForm_of_class (.abs w) ldy_hasEffect rfl s
  · exact readForm_of_class (.absX w) ldy_hasEffect rfl s

/-- Settles O17: the row and the class of each form of STA, STX and STY. -/
theorem stores : Obligations.Stores := by
  refine ⟨⟨decodesByte_of_rowOf rfl, decodesByte_of_rowOf rfl, decodesWord_of_rowOf rfl, decodesWord_of_rowOf rfl,
    decodesWord_of_rowOf rfl, decodesByte_of_rowOf rfl, decodesByte_of_rowOf rfl⟩,
    fun s => ⟨fun b => ?_, fun b => ?_, fun w => ?_, fun w => ?_, fun w => ?_, fun b => ?_, fun b => ?_⟩,
    ⟨decodesByte_of_rowOf rfl, decodesByte_of_rowOf rfl, decodesWord_of_rowOf rfl⟩,
    fun s => ⟨fun b => ?_, fun b => ?_, fun w => ?_⟩,
    ⟨decodesByte_of_rowOf rfl, decodesByte_of_rowOf rfl, decodesWord_of_rowOf rfl⟩,
    fun s => ⟨fun b => ?_, fun b => ?_, fun w => ?_⟩⟩
  · exact writeForm_of_class .a (.zp b) rfl s
  · exact writeForm_of_class .a (.zpX b) rfl s
  · exact writeForm_of_class .a (.abs w) rfl s
  · exact writeForm_of_class .a (.absX w) rfl s
  · exact writeForm_of_class .a (.absY w) rfl s
  · exact writeForm_of_class .a (.indX b) rfl s
  · exact writeForm_of_class .a (.indY b) rfl s
  · exact writeForm_of_class .x (.zp b) rfl s
  · exact writeForm_of_class .x (.zpY b) rfl s
  · exact writeForm_of_class .x (.abs w) rfl s
  · exact writeForm_of_class .y (.zp b) rfl s
  · exact writeForm_of_class .y (.zpX b) rfl s
  · exact writeForm_of_class .y (.abs w) rfl s

end Sys2Proof.Proofs
end

section
/-!
SUPPORT. The instructions with no memory access, the stack apart (R180 to R185 here): a row without an operand, and what a form of
the register class does. Then the transfers, of which all but TXS are loads of a register's value.
-/

namespace Sys2Proof.Proofs

open Sys2Proof.Machine Sys2Proof.Claims

variable {op : Byte} {i : Instr} {s : State}

theorem decodesAlone_of_rowOf (hrow : rowOf op = some (.alone i)) : DecodesAlone op i :=
  fun _ => decode_eq_ok_iff.2 ⟨[op], rfl, .alone hrow⟩

/-! ### What the register class does -/

/-- The operations on registers change A, X, Y, SP and P only. -/
theorem RegisterOp.apply_frame (rop : RegisterOp) (s : State) :
    rop.apply s =
      { s with
        cpu := { s.cpu with
          a := (rop.apply s).cpu.a
          x := (rop.apply s).cpu.x
          y := (rop.apply s).cpu.y
          sp := (rop.apply s).cpu.sp
          p := (rop.apply s).cpu.p } } := by
  cases rop with
  | load op value =>
    simp only [RegisterOp.apply]
    rw [op.apply_frame]
  | txs | shift op | flag f b | nop => rfl

theorem RegisterOp.advance_apply_ends (rop : RegisterOp) (s : State) : Ends 1 1 s (advance 1 1 (rop.apply s)) :=
  advance_ends (rop.apply_frame s) 1 1

section
variable {rop : RegisterOp} {effect : Cpu → Cpu → Prop}

theorem exec_of_registerClass (hi : classOf i = .register rop) (s : State) :
    exec i s = .next (advance 1 1 (rop.apply s)) := by
  rw [exec_eq_run, hi]
  rfl

theorem registerForm_of_class (hi : classOf i = .register rop) (h : effect s.cpu (advance 1 1 (rop.apply s)).cpu) :
    RegisterForm effect i s :=
  ⟨_, exec_of_registerClass hi s, h, rop.advance_apply_ends s⟩

end

/-! ### The transfers -/

/-- Settles O18: the row of each transfer, and its class, which is that of a load of the source register, or TXS, which keeps P. -/
theorem transfers : Obligations.Transfers := by
  refine ⟨⟨decodesAlone_of_rowOf rfl, decodesAlone_of_rowOf rfl, decodesAlone_of_rowOf rfl, decodesAlone_of_rowOf rfl,
    decodesAlone_of_rowOf rfl, decodesAlone_of_rowOf rfl⟩, fun s => ⟨?tax, ?tay, ?tsx, ?txa, ?txs, ?tya⟩⟩
  case tax => exact registerForm_of_class rfl (ldx_hasEffect s.cpu.a s 1 1)
  case tay => exact registerForm_of_class rfl (ldy_hasEffect s.cpu.a s 1 1)
  case tsx => exact registerForm_of_class rfl (ldx_hasEffect s.cpu.sp s 1 1)
  case txa => exact registerForm_of_class rfl (lda_hasEffect s.cpu.x s 1 1)
  case txs => exact registerForm_of_class rfl ⟨rfl, rfl, rfl, rfl, rfl⟩
  case tya => exact registerForm_of_class rfl (lda_hasEffect s.cpu.y s 1 1)

end Sys2Proof.Proofs
end

section
/-!
SUPPORT. The stack (R137): the cell of a push and of a pull in the statements' arithmetic, what a push and a pull do, and then PHA,
PHP, PLA and PLP (R190 to R193).
-/

namespace Sys2Proof.Proofs

open Sys2Proof.Machine Sys2Proof.Claims

variable {s t : State}

/-! ### The cells -/

theorem stackIndex_eq_stackCell (sp : Byte) : stackIndex sp = stackCell sp 0 := by
  have := sp.isLt
  rw [stackIndex, stackCell]
  omega

theorem pulledByte_eq_read (s : State) : pulledByte s = s.bus.ram.read (pullCell s.cpu.sp 0) :=
  congrArg s.bus.ram.read (stackIndex_add s.cpu.sp 1)

/-! ### A push -/

theorem read_push_stackCell (d : Byte) (s : State) : (push d s).bus.ram.read (stackCell s.cpu.sp 0) = d := by
  rw [push_bus, stackIndex_eq_stackCell, Memory.read_write_self]

theorem push_onlyCpuAndRam (d : Byte) (s : State) : OnlyCpuAndRam [stackCell s.cpu.sp 0] s (push d s) := by
  refine ⟨rfl, rfl, rfl, rfl, fun i hi => ?_⟩
  rw [push_bus, stackIndex_eq_stackCell, Memory.read_write_ne _ d (List.ne_of_not_mem_cons hi)]

theorem push_spDown (d : Byte) (s : State) : SpDown 1 s (push d s) := by
  rw [SpDown, push_sp, BitVec.toNat_sub, Nat.add_comm, Nat.add_sub_assoc (by decide)]
  rfl

/-! ### The end of a stack instruction -/

theorem moves_of_ends {len idle : Nat} (h : Ends len idle s t) : Moves (s.cpu.pc.toNat + len) idle s t := by
  obtain ⟨hpc, hidle, hcycles, hstatus, -⟩ := h
  exact ⟨hpc, hidle, hcycles, hstatus⟩

/-- What PHA and PHP share: all but the byte pushed. -/
theorem advance_push_spec (d : Byte) (s : State) :
    OnlyCpuAndRam [stackCell s.cpu.sp 0] s (advance 1 2 (push d s)) ∧ SpDown 1 s (advance 1 2 (push d s)) ∧
      KeepsAXY s (advance 1 2 (push d s)) ∧ (advance 1 2 (push d s)).cpu.p = s.cpu.p ∧
      Moves (s.cpu.pc.toNat + 1) 2 s (advance 1 2 (push d s)) :=
  ⟨push_onlyCpuAndRam d s, push_spDown d s, ⟨rfl, rfl, rfl⟩, rfl, moves_of_ends (s := push d s) (advance_ends rfl 1 2)⟩

/-- What PLA and PLP share: SP, the memory and the end. -/
theorem pull_spec (hends : Ends 1 3 s t) (hsp : t.cpu.sp = s.cpu.sp + 1) :
    SpUp 1 s t ∧ t.bus = s.bus ∧ OnlyCpuAndRam [] s t ∧ Moves (s.cpu.pc.toNat + 1) 3 s t := by
  have hmoves := moves_of_ends hends
  obtain ⟨-, -, -, -, hcfg, hbus, hppu, htrace⟩ := hends
  have hup : SpUp 1 s t := by
    rw [SpUp, hsp]
    exact BitVec.toNat_add s.cpu.sp 1
  exact ⟨hup, hbus, ⟨hcfg, hppu, htrace, by rw [hbus], fun i _ => by rw [hbus]⟩, hmoves⟩

/-! ### The four instructions -/

/-- Settles O19: both are one push and the end of the instruction. -/
theorem pushes : Obligations.Pushes := by
  refine ⟨⟨decodesAlone_of_rowOf rfl, decodesAlone_of_rowOf rfl⟩, fun s => ⟨?pha, ?php⟩⟩
  case pha => exact ⟨_, rfl, read_push_stackCell s.cpu.a s, advance_push_spec s.cpu.a s⟩
  case php =>
    refine ⟨_, rfl, fun k hk => ?_, advance_push_spec (pushedByInstruction s.cpu.p) s⟩
    rw [advance_bus, read_push_stackCell, getLsbD_pushedByInstruction _ k hk]

/-- Settles O20: both change SP and A or P, and end with the bus as it was. -/
theorem pulls : Obligations.Pulls := by
  refine ⟨⟨decodesAlone_of_rowOf rfl, decodesAlone_of_rowOf rfl⟩, fun s => ⟨?pla, ?plp⟩⟩
  case pla =>
    exact ⟨_, rfl, pulledByte_eq_read s, rfl, rfl, znOf_setZN _ _, keepsBits_setZN _ _, pull_spec (advance_ends rfl 1 3) rfl⟩
  case plp =>
    refine ⟨_, rfl, fun k hk => ?_, ⟨rfl, rfl, rfl⟩, pull_spec (advance_ends rfl 1 3) rfl⟩
    rw [advance_p, setStatus_p, getLsbD_pulledStatus _ k hk, pulledByte_eq_read]

end Sys2Proof.Proofs
end

section
/-!
SUPPORT. The arithmetic and logic instructions (R200 to R205): what the forms of an accumulator operation have in common, the
flags of ADC in arithmetic, SBC as an ADC of the complement, and then the six effects.
-/

namespace Sys2Proof.Proofs

open Sys2Proof.Machine Sys2Proof.Claims

/-! ### The eight forms of an accumulator operation -/

/-- The instructions of one accumulator operation, by addressing mode. -/
structure AccumulatorForms where
  imm : Byte → Instr
  zp : Byte → Instr
  zpX : Byte → Instr
  abs : Word → Instr
  absX : Word → Instr
  absY : Word → Instr
  indX : Byte → Instr
  indY : Byte → Instr

section
variable {forms : AccumulatorForms} {rop : ReadOp} {effect : Effect} {base : Byte}

/-- Each form has its row at its offset from the operation's first opcode (R113), and is the operation in its mode. -/
structure AccumulatorForms.Table (forms : AccumulatorForms) (base : Byte) (rop : ReadOp) : Prop where
  imm : rowOf (base + 0x09) = some (.oneByte forms.imm) ∧ ∀ m, classOf (forms.imm m) = .immediate rop m
  zp : rowOf (base + 0x05) = some (.oneByte forms.zp) ∧ ∀ b, classOf (forms.zp b) = .read rop (.zp b)
  zpX : rowOf (base + 0x15) = some (.oneByte forms.zpX) ∧ ∀ b, classOf (forms.zpX b) = .read rop (.zpX b)
  abs : rowOf (base + 0x0D) = some (.twoBytes forms.abs) ∧ ∀ w, classOf (forms.abs w) = .read rop (.abs w)
  absX : rowOf (base + 0x1D) = some (.twoBytes forms.absX) ∧ ∀ w, classOf (forms.absX w) = .read rop (.absX w)
  absY : rowOf (base + 0x19) = some (.twoBytes forms.absY) ∧ ∀ w, classOf (forms.absY w) = .read rop (.absY w)
  indX : rowOf (base + 0x01) = some (.oneByte forms.indX) ∧ ∀ b, classOf (forms.indX b) = .read rop (.indX b)
  indY : rowOf (base + 0x11) = some (.oneByte forms.indY) ∧ ∀ b, classOf (forms.indY b) = .read rop (.indY b)

theorem AccumulatorForms.Table.decodes (h : forms.Table base rop) :
    DecodesByte (base + 0x09) forms.imm ∧ DecodesByte (base + 0x05) forms.zp ∧ DecodesByte (base + 0x15) forms.zpX ∧
      DecodesWord (base + 0x0D) forms.abs ∧ DecodesWord (base + 0x1D) forms.absX ∧ DecodesWord (base + 0x19) forms.absY ∧
      DecodesByte (base + 0x01) forms.indX ∧ DecodesByte (base + 0x11) forms.indY :=
  ⟨decodesByte_of_rowOf h.imm.1, decodesByte_of_rowOf h.zp.1, decodesByte_of_rowOf h.zpX.1, decodesWord_of_rowOf h.abs.1,
    decodesWord_of_rowOf h.absX.1, decodesWord_of_rowOf h.absY.1, decodesByte_of_rowOf h.indX.1,
    decodesByte_of_rowOf h.indY.1⟩

theorem AccumulatorForms.Table.runs (h : forms.Table base rop) (heffect : rop.HasEffect effect) (s : State) :
    (∀ m, ImmediateForm effect (forms.imm m) m s) ∧
      (∀ b, ReadForm effect (forms.zp b) 2 2 (zeroPage b) s) ∧
      (∀ b, ReadForm effect (forms.zpX b) 2 3 (zeroPageIndexed b s.cpu.x) s) ∧
      (∀ w, ReadForm effect (forms.abs w) 3 3 w s) ∧
      (∀ w, ReadForm effect (forms.absX w) 3 (3 + crossing w s.cpu.x) (indexedBy w s.cpu.x) s) ∧
      (∀ w, ReadForm effect (forms.absY w) 3 (3 + crossing w s.cpu.y) (indexedBy w s.cpu.y) s) ∧
      (∀ b, ReadForm effect (forms.indX b) 2 5 (pointerAt s (b.toNat + s.cpu.x.toNat)) s) ∧
      (∀ b, ReadForm effect (forms.indY b) 2 (4 + crossing (pointerAt s b.toNat) s.cpu.y)
        (indexedBy (pointerAt s b.toNat) s.cpu.y) s) :=
  ⟨fun m => immediateForm_of_class heffect (h.imm.2 m) s, fun b => readForm_of_class (.zp b) heffect (h.zp.2 b) s,
    fun b => readForm_of_class (.zpX b) heffect (h.zpX.2 b) s, fun w => readForm_of_class (.abs w) heffect (h.abs.2 w) s,
    fun w => readForm_of_class (.absX w) heffect (h.absX.2 w) s, fun w => readForm_of_class (.absY w) heffect (h.absY.2 w) s,
    fun b => readForm_of_class (.indX b) heffect (h.indX.2 b) s, fun b => readForm_of_class (.indY b) heffect (h.indY.2 b) s⟩

end

/-- ADC's forms (R200). -/
def adcForms : AccumulatorForms := ⟨.adcImm, .adcZp, .adcZpX, .adcAbs, .adcAbsX, .adcAbsY, .adcIndX, .adcIndY⟩

/-- SBC's forms (R201). -/
def sbcForms : AccumulatorForms := ⟨.sbcImm, .sbcZp, .sbcZpX, .sbcAbs, .sbcAbsX, .sbcAbsY, .sbcIndX, .sbcIndY⟩

/-- AND's forms (R202). -/
def andForms : AccumulatorForms := ⟨.andImm, .andZp, .andZpX, .andAbs, .andAbsX, .andAbsY, .andIndX, .andIndY⟩

/-- ORA's forms (R203). -/
def oraForms : AccumulatorForms := ⟨.oraImm, .oraZp, .oraZpX, .oraAbs, .oraAbsX, .oraAbsY, .oraIndX, .oraIndY⟩

/-- EOR's forms (R204). -/
def eorForms : AccumulatorForms := ⟨.eorImm, .eorZp, .eorZpX, .eorAbs, .eorAbsX, .eorAbsY, .eorIndX, .eorIndY⟩

theorem adcForms_table : adcForms.Table 0x60 .adc := by constructor <;> exact ⟨rfl, fun _ => rfl⟩

theorem sbcForms_table : sbcForms.Table 0xE0 .sbc := by constructor <;> exact ⟨rfl, fun _ => rfl⟩

theorem andForms_table : andForms.Table 0x20 .and := by constructor <;> exact ⟨rfl, fun _ => rfl⟩

theorem oraForms_table : oraForms.Table 0x00 .ora := by constructor <;> exact ⟨rfl, fun _ => rfl⟩

theorem eorForms_table : eorForms.Table 0x40 .eor := by constructor <;> exact ⟨rfl, fun _ => rfl⟩

/-! ### ADC -/

theorem addResult_toNat (a m : Byte) (c : Bool) : (addResult a m c).toNat = (a.toNat + m.toNat + c.toNat) % 256 :=
  BitVec.toNat_ofNat _ 8

/-- V in the pseudocode of R200, in the words of the rule: the result's sign is neither A's nor M's. -/
theorem addOverflow_eq_signs (a m r : Byte) :
    addOverflow a m r = ((a.getLsbD 7 ^^ r.getLsbD 7) && (m.getLsbD 7 ^^ r.getLsbD 7)) := by
  rw [addOverflow, show (0x80 : Byte) = BitVec.twoPow 8 7 from rfl, BitVec.and_twoPow, BitVec.getLsbD_and,
    BitVec.getLsbD_xor, BitVec.getLsbD_xor]
  cases (a.getLsbD 7 ^^ r.getLsbD 7) && (m.getLsbD 7 ^^ r.getLsbD 7) <;> rfl

/-- The signs of A, M and the result disagree as R200 says exactly when the signed sum is out of range. -/
theorem addOverflow_addResult (a m : Byte) (c : Bool) :
    addOverflow a m (addResult a m c) =
      decide (a.toInt + m.toInt + (c.toNat : Int) < -128 ∨ 127 < a.toInt + m.toInt + (c.toNat : Int)) := by
  have hsigns : addOverflow a m (addResult a m c) = true ↔
      ¬(128 ≤ a.toNat ↔ 128 ≤ (a.toNat + m.toNat + c.toNat) % 256) ∧
        ¬(128 ≤ m.toNat ↔ 128 ≤ (a.toNat + m.toNat + c.toNat) % 256) := by
    rw [addOverflow_eq_signs, byte_bit7, byte_bit7, byte_bit7, addResult_toNat]
    simp only [Bool.and_eq_true, bne_iff_ne, ne_eq, decide_eq_decide]
  have ha := a.isLt
  have hm := m.isLt
  have hc := c.toNat_le
  rw [Bool.eq_iff_iff, hsigns, decide_eq_true_iff, BitVec.toInt_eq_toNat_cond, BitVec.toInt_eq_toNat_cond]
  split <;> split <;> omega

theorem adc_hasEffect : ReadOp.adc.HasEffect adcEffect := by
  intro m s len idle
  refine ⟨addResult_toNat _ _ _, rfl, rfl, rfl, ?carry, ?overflow, znOf_setZN _ _, (ReadOp.adc.apply_flags m s).flags⟩
  case carry => exact getLsbD_addFlags _ _ _ 0 (by decide)
  case overflow => exact (getLsbD_addFlags _ _ _ 6 (by decide)).trans (addOverflow_addResult _ _ _)

/-! ### SBC -/

/-- The complement of M: adding it and C subtracts M and the borrow (R201). -/
theorem subtrahend_toNat (m : Byte) : (subtrahend m).toNat = 255 - m.toNat := by
  rw [subtrahend, show m ^^^ 0xFF = ~~~m from BitVec.xor_allOnes, BitVec.toNat_not]

theorem subtrahend_toInt (m : Byte) : (subtrahend m).toInt = -1 - m.toInt := by
  rw [BitVec.toInt_eq_toNat_cond, BitVec.toInt_eq_toNat_cond, subtrahend_toNat]
  have := m.isLt
  split <;> split <;> omega

theorem sbc_hasEffect : ReadOp.sbc.HasEffect sbcEffect := by
  intro m s len idle
  obtain ⟨ha, hx, hy, hsp, hcarry, hoverflow, hzn, hkeeps⟩ := adc_hasEffect (subtrahend m) s len idle
  have hm := m.isLt
  have hc := (s.cpu.p.getLsbD 0).toNat_le
  rw [subtrahend_toNat] at ha hcarry
  rw [subtrahend_toInt] at hoverflow
  refine ⟨ha.trans ?_, hx, hy, hsp, hcarry.trans ?_, hoverflow.trans ?_, hzn, hkeeps⟩
  · omega
  · rw [decide_eq_decide]
    omega
  · rw [decide_eq_decide]
    omega

/-! ### AND, ORA, EOR and BIT -/

theorem and_hasEffect : ReadOp.and.HasEffect andEffect :=
  fun _ _ _ _ => ⟨fun _ => BitVec.getLsbD_and, rfl, rfl, rfl, znOf_setZN _ _, keepsBits_setZN _ _⟩

theorem ora_hasEffect : ReadOp.ora.HasEffect oraEffect :=
  fun _ _ _ _ => ⟨fun _ => BitVec.getLsbD_or, rfl, rfl, rfl, znOf_setZN _ _, keepsBits_setZN _ _⟩

theorem eor_hasEffect : ReadOp.eor.HasEffect eorEffect :=
  fun _ _ _ _ => ⟨fun _ => BitVec.getLsbD_xor, rfl, rfl, rfl, znOf_setZN _ _, keepsBits_setZN _ _⟩

theorem and_beq_zero_iff (a m : Byte) :
    (a &&& m == 0) = true ↔ ∀ k, k < 8 → ¬(a.getLsbD k = true ∧ m.getLsbD k = true) := by
  rw [beq_iff_eq, BitVec.eq_of_getLsbD_eq_iff]
  simp

theorem bit_hasEffect : ReadOp.bit.HasEffect bitEffect := by
  intro m s len idle
  have hbit := getLsbD_bitFlags s.cpu.a m s.cpu.p
  refine ⟨rfl, rfl, rfl, rfl, ?zero, hbit 6 (by decide), hbit 7 (by decide), (ReadOp.bit.apply_flags m s).flags⟩
  case zero => exact (Bool.eq_iff_iff.1 (hbit 1 (by decide))).trans (and_beq_zero_iff s.cpu.a m)

/-! ### The statements -/

/-- Settles O21: the table of its forms, and the effect they share. -/
theorem addWithCarry : Obligations.AddWithCarry :=
  ⟨adcForms_table.decodes, adcForms_table.runs adc_hasEffect⟩

/-- Settles O22: the table of its forms, and the effect they share, which is ADC's of the complemented operand. -/
theorem subtractWithBorrow : Obligations.SubtractWithBorrow :=
  ⟨sbcForms_table.decodes, sbcForms_table.runs sbc_hasEffect⟩

/-- Settles O23: the three tables, and the effects, each a load of A with the bits of the result. -/
theorem logic : Obligations.Logic :=
  ⟨andForms_table.decodes, andForms_table.runs and_hasEffect, oraForms_table.decodes, oraForms_table.runs ora_hasEffect,
    eorForms_table.decodes, eorForms_table.runs eor_hasEffect⟩

/-- Settles O24: the row and the class of its two forms, and the effect, read off the bits of P. -/
theorem bitTest : Obligations.BitTest :=
  ⟨⟨decodesByte_of_rowOf rfl, decodesWord_of_rowOf rfl⟩, fun s =>
    ⟨fun b => readForm_of_class (.zp b) bit_hasEffect rfl s, fun w => readForm_of_class (.abs w) bit_hasEffect rfl s⟩⟩

end Sys2Proof.Proofs
end

section
/-!
SUPPORT. The increments and decrements (R210 to R215): what a decoded form of the read-modify-write class does, once for all its
operations and addressing modes, the four forms that such an operation has, and then the arithmetic of one more and one less.
-/

namespace Sys2Proof.Proofs

open Sys2Proof.Machine Sys2Proof.Claims

/-! ### What the read-modify-write class does -/

/-- The operation stores this result of M and C, and puts P before the store into this form. -/
structure ModifyOp.Computes (mop : ModifyOp) (result : Byte → Bool → Byte) (before : Byte → Byte → Byte) : Prop where
  result_eq : ∀ m s, mop.result m s = result m (s.cpu.p.getLsbD 0)
  before_eq : ∀ m p, mop.before m p = before m p

section
variable {mop : ModifyOp} {result : Byte → Bool → Byte} {before : Byte → Byte → Byte} {i : Instr}

/-- A read changes no flag, so the operation finds C and P as they were. -/
theorem ModifyOp.Computes.after_read {a : Word} {s s1 : State} {m : Byte} (h : mop.Computes result before)
    (hread : memRead a s = .done m s1) :
    mop.result m s1 = result m (s.cpu.p.getLsbD 0) ∧ mop.before m s1.cpu.p = before m s.cpu.p := by
  rw [h.result_eq, h.before_eq, (memRead_frame hread).cpu]
  exact ⟨rfl, rfl⟩

theorem modifyForm_of_class (mode : Mode) (h : mop.Computes result before) (hi : classOf i = .modify mop mode) (s : State) :
    ModifyForm result before i mode.length.toNat (mode.modifyCycles - 1) (mode.address s) s := by
  rw [ModifyForm, exec_eq_run, hi, InstrClass.run, ← mode.operand_addr]
  refine ⟨fun hmodifiable => ?done, fun m s1 hread hwritable => ?stoppedWrite, fun hreadable => ?stoppedRead⟩
  case done =>
    obtain ⟨m, s1, hread⟩ := memRead_done _ _ fun hport => (hmodifiable.2 hport).1
    have hcpu : s1.cpu = s.cpu := (memRead_frame hread).cpu
    have hwritable : Writable s1 (mode.operand s).addr := writable_after_read hmodifiable hread
    obtain ⟨s2, hwrite⟩ := memWrite_done _ (mop.result m s1) (setStatus (mop.before m s1.cpu.p) s1) hwritable
    have hrun := runModify_done (len := mode.length) (base := mode.modifyCycles) hread hwrite
    obtain ⟨hresult, hbefore⟩ := h.after_read hread
    rw [hresult, hbefore] at hwrite
    obtain ⟨ha, hx, hy, hsp, hp, hpc⟩ := WriteFrame.registers (memWrite_frame hwrite)
    simp only [setStatus_a, setStatus_x, setStatus_y, setStatus_sp, setStatus_p, setStatus_pc, hcpu] at ha hx hy hsp hp hpc
    rw [hresult, hp] at hrun
    exact ⟨m, s1, s2, _, hread, hwrite, hrun, ha, hx, hy, hsp, znOf_setZN _ _, keepsBits_setZN _ _, hpc, advance_ends rfl _ _⟩
  case stoppedWrite =>
    rw [runModify_stopped_write hread hwritable, (h.after_read hread).2]
    rfl
  case stoppedRead => exact runModify_stopped_read hreadable

end

/-! ### The four forms of a read-modify-write operation -/

/-- The instructions of one read-modify-write operation, by addressing mode. -/
structure ModifyForms where
  zp : Byte → Instr
  zpX : Byte → Instr
  abs : Word → Instr
  absX : Word → Instr

section
variable {forms : ModifyForms} {mop : ModifyOp} {result : Byte → Bool → Byte} {before : Byte → Byte → Byte} {base : Byte}

/-- Each form has its row at its offset from the operation's base opcode (R113), and is the operation in its mode. -/
structure ModifyForms.Table (forms : ModifyForms) (base : Byte) (mop : ModifyOp) : Prop where
  zp : rowOf (base + 0x06) = some (.oneByte forms.zp) ∧ ∀ b, classOf (forms.zp b) = .modify mop (.zp b)
  zpX : rowOf (base + 0x16) = some (.oneByte forms.zpX) ∧ ∀ b, classOf (forms.zpX b) = .modify mop (.zpX b)
  abs : rowOf (base + 0x0E) = some (.twoBytes forms.abs) ∧ ∀ w, classOf (forms.abs w) = .modify mop (.abs w)
  absX : rowOf (base + 0x1E) = some (.twoBytes forms.absX) ∧ ∀ w, classOf (forms.absX w) = .modify mop (.absX w)

theorem ModifyForms.Table.decodes (h : forms.Table base mop) :
    DecodesByte (base + 0x06) forms.zp ∧ DecodesByte (base + 0x16) forms.zpX ∧ DecodesWord (base + 0x0E) forms.abs ∧
      DecodesWord (base + 0x1E) forms.absX :=
  ⟨decodesByte_of_rowOf h.zp.1, decodesByte_of_rowOf h.zpX.1, decodesWord_of_rowOf h.abs.1, decodesWord_of_rowOf h.absX.1⟩

theorem ModifyForms.Table.runs (h : forms.Table base mop) (hop : mop.Computes result before) (s : State) :
    (∀ b, ModifyForm result before (forms.zp b) 2 4 (zeroPage b) s) ∧
      (∀ b, ModifyForm result before (forms.zpX b) 2 5 (zeroPageIndexed b s.cpu.x) s) ∧
      (∀ w, ModifyForm result before (forms.abs w) 3 5 w s) ∧
      (∀ w, ModifyForm result before (forms.absX w) 3 6 (indexedBy w s.cpu.x) s) :=
  ⟨fun b => modifyForm_of_class (.zp b) hop (h.zp.2 b) s, fun b => modifyForm_of_class (.zpX b) hop (h.zpX.2 b) s,
    fun w => modifyForm_of_class (.abs w) hop (h.abs.2 w) s, fun w => modifyForm_of_class (.absX w) hop (h.absX.2 w) s⟩

end

/-! ### One more and one less -/

theorem inc_computes : (ModifyOp.step 1).Computes incResult keepsP := ⟨fun m _ => BitVec.add_def m 1, fun _ _ => rfl⟩

/-- One less is 255 more (R211). -/
theorem dec_computes : (ModifyOp.step (-1)).Computes decResult keepsP := ⟨fun m _ => BitVec.add_def m (-1), fun _ _ => rfl⟩

theorem byte_sub_one_toNat (v : Byte) : (v - 1).toNat = (v.toNat + 255) % 256 := by
  rw [BitVec.toNat_sub, Nat.add_comm]
  rfl

/-! ### The statements -/

/-- INC's forms (R210). -/
def incForms : ModifyForms := ⟨.incZp, .incZpX, .incAbs, .incAbsX⟩

/-- DEC's forms (R211). -/
def decForms : ModifyForms := ⟨.decZp, .decZpX, .decAbs, .decAbsX⟩

theorem incForms_table : incForms.Table 0xE0 (.step 1) := by constructor <;> exact ⟨rfl, fun _ => rfl⟩

theorem decForms_table : decForms.Table 0xC0 (.step (-1)) := by constructor <;> exact ⟨rfl, fun _ => rfl⟩

/-- Settles O25: the table of each operation's forms, and the result they store. -/
theorem incDecMemory : Obligations.IncDecMemory :=
  ⟨incForms_table.decodes, incForms_table.runs inc_computes, decForms_table.decodes, decForms_table.runs dec_computes⟩

/-- Settles O26: each is a load of its register with one more or one less than it held. -/
theorem incDecRegisters : Obligations.IncDecRegisters := by
  refine ⟨⟨decodesAlone_of_rowOf rfl, decodesAlone_of_rowOf rfl, decodesAlone_of_rowOf rfl, decodesAlone_of_rowOf rfl⟩,
    fun s => ⟨?inx, ?iny, ?dex, ?dey⟩⟩
  case inx => exact registerForm_of_class rfl ⟨BitVec.toNat_add s.cpu.x 1, (ldx_hasEffect (s.cpu.x + 1) s 1 1).2⟩
  case iny => exact registerForm_of_class rfl ⟨BitVec.toNat_add s.cpu.y 1, (ldy_hasEffect (s.cpu.y + 1) s 1 1).2⟩
  case dex => exact registerForm_of_class rfl ⟨byte_sub_one_toNat s.cpu.x, (ldx_hasEffect (s.cpu.x - 1) s 1 1).2⟩
  case dey => exact registerForm_of_class rfl ⟨byte_sub_one_toNat s.cpu.y, (ldy_hasEffect (s.cpu.y - 1) s 1 1).2⟩

end Sys2Proof.Proofs
end

section
/-!
SUPPORT. The shifts and rotates (R220 to R223): the accumulator form and the five forms of each, and then C and the result in the
statements' arithmetic, where a shift is the rotate of a clear C.
-/

namespace Sys2Proof.Proofs

open Sys2Proof.Machine Sys2Proof.Claims

/-! ### The five forms of a shift -/

/-- The instructions of one shift: the read-modify-write forms and the one on A. -/
structure ShiftForms extends ModifyForms where
  acc : Instr

section
variable {forms : ShiftForms} {sop : ShiftOp} {result : Byte → Bool → Byte} {before : Byte → Byte → Byte} {base : Byte}
  {i : Instr}

/-- On A a shift is what it is on memory, with A for M (R141). -/
theorem accumulatorForm_of_class (h : (ModifyOp.shift sop).Computes result before) (hi : classOf i = .register (.shift sop))
    (s : State) : AccumulatorForm result before i s := by
  have ha : (advance 1 1 ((RegisterOp.shift sop).apply s)).cpu.a = result s.cpu.a (s.cpu.p.getLsbD 0) := h.result_eq s.cpu.a s
  refine ⟨_, exec_of_registerClass hi s, ha, rfl, rfl, rfl, znOf_setZN _ _, ?_, RegisterOp.advance_apply_ends _ s⟩
  rw [← h.before_eq]
  exact keepsBits_setZN _ _

/-- The accumulator form has its row at its offset from the shift's base opcode, as the memory forms have theirs (R113). -/
structure ShiftForms.Table (forms : ShiftForms) (base : Byte) (sop : ShiftOp) : Prop where
  acc : rowOf (base + 0x0A) = some (.alone forms.acc) ∧ classOf forms.acc = .register (.shift sop)
  memory : forms.toModifyForms.Table base (.shift sop)

theorem ShiftForms.Table.decodes (h : forms.Table base sop) :
    DecodesAlone (base + 0x0A) forms.acc ∧ DecodesByte (base + 0x06) forms.zp ∧ DecodesByte (base + 0x16) forms.zpX ∧
      DecodesWord (base + 0x0E) forms.abs ∧ DecodesWord (base + 0x1E) forms.absX :=
  ⟨decodesAlone_of_rowOf h.acc.1, h.memory.decodes⟩

theorem ShiftForms.Table.runs (h : forms.Table base sop) (hop : (ModifyOp.shift sop).Computes result before) (s : State) :
    AccumulatorForm result before forms.acc s ∧
      (∀ b, ModifyForm result before (forms.zp b) 2 4 (zeroPage b) s) ∧
      (∀ b, ModifyForm result before (forms.zpX b) 2 5 (zeroPageIndexed b s.cpu.x) s) ∧
      (∀ w, ModifyForm result before (forms.abs w) 3 5 w s) ∧
      (∀ w, ModifyForm result before (forms.absX w) 3 6 (indexedBy w s.cpu.x) s) :=
  ⟨accumulatorForm_of_class hop h.acc.2 s, h.memory.runs hop s⟩

end

/-! ### The carry -/

/-- P with C replaced is bits 1 to 7 of P above the new C. -/
theorem withCarry_eq_shiftConcat (c : Bool) (p : Byte) : withCarry c p = (p >>> 1).shiftConcat c := by
  apply BitVec.eq_of_toNat_eq
  rw [withCarry, BitVec.toNat_ofNat, BitVec.toNat_shiftConcat, BitVec.toNat_ushiftRight, Nat.shiftLeft_eq,
    Nat.shiftRight_eq_div_pow]

theorem setFlag_carry (c : Bool) (p : Byte) : setFlag .carry c p = withCarry c p := by
  apply BitVec.eq_of_getLsbD_eq
  intro k hk
  rw [getLsbD_setFlag _ _ _ k hk, withCarry_eq_shiftConcat, BitVec.getLsbD_shiftConcat, decide_eq_true hk, Bool.true_and]
  cases k with
  | zero => rfl
  | succ k => simp [flagBit, Nat.add_comm 1]

theorem setFlag_carry_bit7 (m p : Byte) : setFlag .carry (m.getLsbD 7) p = carryFromBit7 m p := by
  rw [setFlag_carry, byte_bit7, carryFromBit7]

theorem setFlag_carry_bit0 (m p : Byte) : setFlag .carry (m.getLsbD 0) p = carryFromBit0 m p := by
  rw [setFlag_carry, byte_bit0, carryFromBit0]

/-! ### The results -/

/-- The bit that the shift frees is 0, so putting C there adds it. -/
theorem rotateLeft_result (m : Byte) (c : Bool) : (rotateLeft m c).2 = rolResult m c := by
  have hc : ((BitVec.ofBool c).setWidth 8).toNat = c.toNat := by cases c <;> rfl
  have hshift : (m <<< 1).toNat = 2 ^ 1 * (m.toNat % 128) := by
    rw [BitVec.toNat_shiftLeft, Nat.shiftLeft_eq]
    omega
  apply BitVec.eq_of_toNat_eq
  rw [rotateLeft, BitVec.toNat_or, hc, hshift, ← Nat.two_pow_add_eq_or_of_lt c.toNat_lt, rolResult, BitVec.toNat_ofNat]
  have := c.toNat_lt
  omega

/-- As in ROL, with bit 7 as the one that is freed: C counts 128 there. -/
theorem rotateRight_result (m : Byte) (c : Bool) : (rotateRight m c).2 = rorResult m c := by
  have hc : ((BitVec.ofBool c).setWidth 8 <<< 7 : Byte).toNat = 2 ^ 7 * c.toNat := by cases c <;> rfl
  have hshift : (m >>> 1).toNat = m.toNat / 2 := by rw [BitVec.toNat_ushiftRight, Nat.shiftRight_eq_div_pow]
  have hm : m.toNat / 2 < 2 ^ 7 := by omega
  apply BitVec.eq_of_toNat_eq
  rw [rotateRight, BitVec.toNat_or, hc, hshift, Nat.or_comm, ← Nat.two_pow_add_eq_or_of_lt hm, rorResult, BitVec.toNat_ofNat]
  have := c.toNat_lt
  omega

/-- ASL is ROL of a clear C. -/
theorem shiftLeft_eq_rotateLeft (m : Byte) : shiftLeft m = rotateLeft m false := congrArg (Prod.mk _) BitVec.or_zero.symm

/-- LSR is ROR of a clear C. -/
theorem shiftRight_eq_rotateRight (m : Byte) : shiftRight m = rotateRight m false := congrArg (Prod.mk _) BitVec.or_zero.symm

theorem asl_computes : (ModifyOp.shift .asl).Computes aslResult carryFromBit7 :=
  ⟨fun m _ => (congrArg Prod.snd (shiftLeft_eq_rotateLeft m)).trans (rotateLeft_result m false), setFlag_carry_bit7⟩

theorem rol_computes : (ModifyOp.shift .rol).Computes rolResult carryFromBit7 :=
  ⟨fun m s => rotateLeft_result m (s.cpu.p.getLsbD 0), setFlag_carry_bit7⟩

theorem lsr_computes : (ModifyOp.shift .lsr).Computes lsrResult carryFromBit0 :=
  ⟨fun m _ => (congrArg Prod.snd (shiftRight_eq_rotateRight m)).trans (rotateRight_result m false), setFlag_carry_bit0⟩

theorem ror_computes : (ModifyOp.shift .ror).Computes rorResult carryFromBit0 :=
  ⟨fun m s => rotateRight_result m (s.cpu.p.getLsbD 0), setFlag_carry_bit0⟩

/-! ### The statements -/

/-- ASL's forms (R220). -/
def aslForms : ShiftForms := ⟨⟨.aslZp, .aslZpX, .aslAbs, .aslAbsX⟩, .aslAcc⟩

/-- LSR's forms (R221). -/
def lsrForms : ShiftForms := ⟨⟨.lsrZp, .lsrZpX, .lsrAbs, .lsrAbsX⟩, .lsrAcc⟩

/-- ROL's forms (R222). -/
def rolForms : ShiftForms := ⟨⟨.rolZp, .rolZpX, .rolAbs, .rolAbsX⟩, .rolAcc⟩

/-- ROR's forms (R223). -/
def rorForms : ShiftForms := ⟨⟨.rorZp, .rorZpX, .rorAbs, .rorAbsX⟩, .rorAcc⟩

theorem aslForms_table : aslForms.Table 0x00 .asl := ⟨⟨rfl, rfl⟩, by constructor <;> exact ⟨rfl, fun _ => rfl⟩⟩

theorem lsrForms_table : lsrForms.Table 0x40 .lsr := ⟨⟨rfl, rfl⟩, by constructor <;> exact ⟨rfl, fun _ => rfl⟩⟩

theorem rolForms_table : rolForms.Table 0x20 .rol := ⟨⟨rfl, rfl⟩, by constructor <;> exact ⟨rfl, fun _ => rfl⟩⟩

theorem rorForms_table : rorForms.Table 0x60 .ror := ⟨⟨rfl, rfl⟩, by constructor <;> exact ⟨rfl, fun _ => rfl⟩⟩

/-- Settles O27: the table of each operation's forms, and the result and the carry they share. -/
theorem shiftsLeft : Obligations.ShiftsLeft :=
  ⟨aslForms_table.decodes, aslForms_table.runs asl_computes, rolForms_table.decodes, rolForms_table.runs rol_computes⟩

/-- Settles O28: the table of each operation's forms, and the result and the carry they share. -/
theorem shiftsRight : Obligations.ShiftsRight :=
  ⟨lsrForms_table.decodes, lsrForms_table.runs lsr_computes, rorForms_table.decodes, rorForms_table.runs ror_computes⟩

end Sys2Proof.Proofs
end

section
/-!
SUPPORT. The compares (R230 to R232): P after a compare in the statements' arithmetic, which one register or another then only
instantiates, and the forms of CMP, CPX and CPY.
-/

namespace Sys2Proof.Proofs

open Sys2Proof.Machine Sys2Proof.Claims

/-! ### P after a compare -/

theorem byte_beq_eq_decide (a b : Byte) : (a == b) = decide (b.toNat = a.toNat) := by
  rw [Bool.eq_iff_iff, beq_iff_eq, decide_eq_true_iff, ← BitVec.toNat_inj, eq_comm]

theorem byte_sub_toNat (a b : Byte) : (a - b).toNat = (a.toNat + 256 - b.toNat) % 256 := by
  have hb := b.isLt
  rw [BitVec.toNat_sub]
  omega

/-- compare(reg, M) (47_compare.md), for whichever register is compared. -/
theorem compareEffect_of_flags {reg : Cpu → Byte} {m : Byte} {c d : Cpu} (ha : d.a = c.a) (hx : d.x = c.x) (hy : d.y = c.y)
    (hsp : d.sp = c.sp) (hp : d.p = compareFlags (reg c) m c.p) (hkeeps : KeepsBits [0, 1, 7] c.p d.p) :
    compareEffect reg m c d := by
  have hbit := getLsbD_compareFlags (reg c) m c.p
  rw [← hp] at hbit
  refine ⟨ha, hx, hy, hsp, hbit 0 (by decide), ?zero, ?negative, hkeeps⟩
  case zero => exact (hbit 1 (by decide)).trans (byte_beq_eq_decide _ _)
  case negative =>
    rw [← byte_sub_toNat, ← byte_bit7]
    exact hbit 7 (by decide)

theorem cmp_hasEffect : ReadOp.cmp.HasEffect (compareEffect (·.a)) :=
  fun m s _ _ => compareEffect_of_flags rfl rfl rfl rfl rfl (ReadOp.cmp.apply_flags m s).flags

theorem cpx_hasEffect : ReadOp.cpx.HasEffect (compareEffect (·.x)) :=
  fun m s _ _ => compareEffect_of_flags rfl rfl rfl rfl rfl (ReadOp.cpx.apply_flags m s).flags

theorem cpy_hasEffect : ReadOp.cpy.HasEffect (compareEffect (·.y)) :=
  fun m s _ _ => compareEffect_of_flags rfl rfl rfl rfl rfl (ReadOp.cpy.apply_flags m s).flags

/-! ### The statement -/

/-- CMP's forms (R230): those of an accumulator operation. -/
def cmpForms : AccumulatorForms := ⟨.cmpImm, .cmpZp, .cmpZpX, .cmpAbs, .cmpAbsX, .cmpAbsY, .cmpIndX, .cmpIndY⟩

theorem cmpForms_table : cmpForms.Table 0xC0 .cmp := by constructor <;> exact ⟨rfl, fun _ => rfl⟩

/-- Settles O29: CMP's table, the row and the class of each form of CPX and CPY, and the effect, which the three share. -/
theorem compares : Obligations.Compares := by
  refine ⟨cmpForms_table.decodes, cmpForms_table.runs cmp_hasEffect,
    ⟨decodesByte_of_rowOf rfl, decodesByte_of_rowOf rfl, decodesWord_of_rowOf rfl⟩,
    fun s => ⟨fun m => ?_, fun b => ?_, fun w => ?_⟩,
    ⟨decodesByte_of_rowOf rfl, decodesByte_of_rowOf rfl, decodesWord_of_rowOf rfl⟩,
    fun s => ⟨fun m => ?_, fun b => ?_, fun w => ?_⟩⟩
  · exact immediateForm_of_class cpx_hasEffect rfl s
  · exact readForm_of_class (.zp b) cpx_hasEffect rfl s
  · exact readForm_of_class (.abs w) cpx_hasEffect rfl s
  · exact immediateForm_of_class cpy_hasEffect rfl s
  · exact readForm_of_class (.zp b) cpy_hasEffect rfl s
  · exact readForm_of_class (.abs w) cpy_hasEffect rfl s

end Sys2Proof.Proofs
end

section
/-!
SUPPORT. Control flow within the program (R240 to R248) and the flag instructions (R260 to R267): what a decoded form of the branch
class and of a flag write does, and the two bus reads of an indirect jump.
-/

namespace Sys2Proof.Proofs

open Sys2Proof.Machine Sys2Proof.Claims

variable {op : Byte} {i : Instr} {s t : State} {f : Flag} {b : Bool}

/-! ### Branches -/

/-- The displacement of the statements is the sign extension that the row makes (R112). -/
theorem decodesBranch_of_rowOf {make : Int → Instr} (hrow : rowOf op = some (.branch make)) : DecodesBranch op make := by
  intro b rest
  have hsigned : signedByte b = if b.toNat < 128 then (b.toNat : Int) else (b.toNat : Int) - 256 := by
    rw [signedByte, BitVec.toInt_eq_toNat_cond]
    split <;> split <;> omega
  rw [← hsigned]
  exact decode_eq_ok_iff.2 ⟨[op, b], rfl, .oneByte b hrow⟩

theorem branchTarget_eq (pc : Word) (disp : Int) : branchTarget pc disp = BitVec.ofInt 16 ((pc.toNat : Int) + 2 + disp) := by
  rw [BitVec.ofInt_add, BitVec.ofInt_add, BitVec.ofInt_natCast, BitVec.ofNat_toNat, BitVec.setWidth_eq]
  rfl

/-- A taken branch costs one cycle more when it leaves the page of PC + 2 (R135). -/
theorem branchExtra_eq (pc : Word) (disp : Int) :
    1 + branchExtra pc disp =
      if (pc.toNat + 2) % 65536 / 256 = (BitVec.ofInt 16 ((pc.toNat : Int) + 2 + disp)).toNat / 256 then 2 else 3 := by
  have hnext : (pc + 2).toNat = (pc.toNat + 2) % 65536 := BitVec.toNat_add pc 2
  simp only [branchExtra, hiByte_eq_iff, branchTarget_eq, hnext]
  split <;> rfl

theorem branchForm_of_class {want : Bool} {make : Int → Instr} (hi : ∀ disp, classOf (make disp) = .branch f want disp) :
    BranchForm (flagBit f) want make := by
  intro s disp next target idle
  have hrun : exec (make disp) s = runBranch (cond want (getFlag f s.cpu.p) (!getFlag f s.cpu.p)) disp s := by
    rw [exec_eq_run, hi]
    rfl
  refine ⟨fun htaken => ?_, fun hnot => ?_⟩
  · have hcond : cond want (getFlag f s.cpu.p) (!getFlag f s.cpu.p) = true := by
      rw [getFlag, htaken]
      cases want <;> rfl
    rw [hrun, runBranch, if_pos hcond, branchTarget_eq, branchExtra_eq]
    rfl
  · have hcond : ¬cond want (getFlag f s.cpu.p) (!getFlag f s.cpu.p) = true := by
      rw [getFlag, hnot]
      cases want <;> decide
    have hnext : s.cpu.pc + 2 = BitVec.ofNat 16 next := by
      rw [← BitVec.toNat_inj, BitVec.toNat_add, BitVec.toNat_ofNat]
      exact (Nat.mod_mod _ _).symm
    rw [hrun, runBranch, if_neg hcond, ← hnext]
    rfl

/-- Settles O30: the row of each branch, and its class, which has the flag's bit and the value wanted. -/
theorem branches : Obligations.Branches :=
  ⟨⟨decodesBranch_of_rowOf rfl, decodesBranch_of_rowOf rfl, decodesBranch_of_rowOf rfl, decodesBranch_of_rowOf rfl,
    decodesBranch_of_rowOf rfl, decodesBranch_of_rowOf rfl, decodesBranch_of_rowOf rfl, decodesBranch_of_rowOf rfl⟩,
    branchForm_of_class (f := .carry) fun _ => rfl, branchForm_of_class (f := .carry) fun _ => rfl,
    branchForm_of_class (f := .zero) fun _ => rfl, branchForm_of_class (f := .negative) fun _ => rfl,
    branchForm_of_class (f := .zero) fun _ => rfl, branchForm_of_class (f := .negative) fun _ => rfl,
    branchForm_of_class (f := .overflow) fun _ => rfl, branchForm_of_class (f := .overflow) fun _ => rfl⟩

/-! ### Jumps -/

/-- The next address of the same page has the page of the address and the low byte of the address after it (R83). -/
theorem nextInPage_eq_wordOf (a : Word) : nextInPage a = wordOf (loByte (a + 1)) (hiByte a) := by
  apply BitVec.eq_of_getLsbD_eq
  intro k hk
  rw [nextInPage, wordOf, loByte, hiByte, BitVec.getLsbD_append]
  interval_cases k <;> simp

theorem nextInPage_eq (a : Word) : nextInPage a = BitVec.ofNat 16 (a.toNat / 256 * 256 + (a.toNat + 1) % 256) := by
  have hnext : (a + 1).toNat = (a.toNat + 1) % 65536 := BitVec.toNat_add a 1
  rw [nextInPage_eq_wordOf, wordOf_eq_ofNat, loByte_toNat, hiByte_toNat, hnext]
  congr 1
  omega

/-- Of two neighbouring addresses at most one is the data port: a read just below it does not step v (R88). -/
theorem v_eq_of_next_dataPort {a : Word} {v : Byte} (h : memRead a s = .done v t) (hnext : IsDataPort (nextInPage a)) :
    t.ppu.v = s.ppu.v := by
  rw [nextInPage_eq, IsDataPort, BitVec.toNat_ofNat] at hnext
  exact memRead_v h fun ha => by omega

theorem readable_nextInPage_iff {a : Word} {v : Byte} (h : memRead a s = .done v t) :
    Readable t (nextInPage a) ↔ Readable s (nextInPage a) :=
  forall_congr' fun hport => by rw [v_eq_of_next_dataPort h hport]

theorem execJmpInd_done {ptr : Word} {s1 s2 : State} {lo hi : Byte} (hlo : memRead ptr s = .done lo s1)
    (hhi : memRead (nextInPage ptr) s1 = .done hi s2) : execJmpInd ptr s = .next (retire (wordOf lo hi) 4 s2) := by
  simp only [execJmpInd, read16Wrap, hlo, hhi, Access.andThen, settle]

theorem execJmpInd_stopped_low {ptr : Word} (h : ¬Readable s ptr) :
    execJmpInd ptr s = .next (s.stopWith (.ppuAddressOutOfRange s.ppu.v)) := by
  simp only [execJmpInd, read16Wrap, memRead_stopped _ _ h, Access.andThen, settle]

theorem execJmpInd_stopped_high {ptr : Word} {s1 : State} {lo : Byte} (hlo : memRead ptr s = .done lo s1)
    (h : ¬Readable s1 (nextInPage ptr)) : execJmpInd ptr s = .next (s1.stopWith (.ppuAddressOutOfRange s1.ppu.v)) := by
  simp only [execJmpInd, read16Wrap, hlo, memRead_stopped _ _ h, Access.andThen, settle]

/-- Settles O31: the two reads of the pointer, of which either may be the one that faults. -/
theorem jump : Obligations.Jump := by
  refine ⟨⟨decodesWord_of_rowOf rfl, decodesWord_of_rowOf rfl⟩, fun s w => rfl, fun s p => ?_⟩
  rw [← nextInPage_eq]
  refine ⟨fun ⟨hp, hnext⟩ => ?_, execJmpInd_stopped_low, fun lo s1 hlo hnext => ?_⟩
  · obtain ⟨lo, s1, hlo⟩ := memRead_done p s hp
    obtain ⟨hi, s2, hhi⟩ := memRead_done _ _ ((readable_nextInPage_iff hlo).2 hnext)
    refine ⟨lo, hi, s1, s2, hlo, hhi, (memRead_frame hhi).cpu.trans (memRead_frame hlo).cpu, ?_⟩
    rw [← wordOf_eq_ofNat]
    exact execJmpInd_done hlo hhi
  · rw [← v_eq_of_next_dataPort hlo (Classical.not_imp.1 hnext).1]
    exact execJmpInd_stopped_high hlo (mt (readable_nextInPage_iff hlo).1 hnext)

/-! ### Flags and NOP -/

theorem flagForm_of_class (hi : classOf i = .register (.flag f b)) (s : State) : FlagForm (flagBit f) b i s := by
  have hbit : (setFlag f b s.cpu.p).getLsbD (flagBit f) = b := by
    rw [getLsbD_setFlag f b _ _ (by cases f <;> decide), if_pos rfl]
  exact ⟨_, exec_of_registerClass hi s, rfl, rfl, rfl, rfl, hbit,
    ((FlagChange.refl _ s.cpu.p).setFlag f b (List.mem_singleton_self _)).flags, RegisterOp.advance_apply_ends _ s⟩

/-- Settles O33: the row of each instruction, and its class, which is that of its flag and value, or NOP. -/
theorem flagsAndNop : Obligations.FlagsAndNop := by
  refine ⟨⟨decodesAlone_of_rowOf rfl, decodesAlone_of_rowOf rfl, decodesAlone_of_rowOf rfl, decodesAlone_of_rowOf rfl,
    decodesAlone_of_rowOf rfl, decodesAlone_of_rowOf rfl, decodesAlone_of_rowOf rfl, decodesAlone_of_rowOf rfl⟩,
    fun s => ⟨?clc, ?cld, ?cli, ?clv, ?sec, ?sed, ?sei, ?nop⟩⟩
  case clc => exact flagForm_of_class (f := .carry) rfl s
  case cld => exact flagForm_of_class (f := .decimal) rfl s
  case cli => exact flagForm_of_class (f := .interruptDisable) rfl s
  case clv => exact flagForm_of_class (f := .overflow) rfl s
  case sec => exact flagForm_of_class (f := .carry) rfl s
  case sed => exact flagForm_of_class (f := .decimal) rfl s
  case sei => exact flagForm_of_class (f := .interruptDisable) rfl s
  case nop =>
    have hpc : BitVec.ofNat 16 (s.cpu.pc.toNat + 1) = s.cpu.pc + 1 := (BitVec.add_def s.cpu.pc 1).symm
    rw [hpc]
    exact exec_of_registerClass (rop := .nop) rfl s

end Sys2Proof.Proofs
end

section
/-!
SUPPORT. The stack as the return of a subroutine or an interrupt finds it (R137): the cells of several pushes and pulls in a row.
Then JSR and RTS (R249, R250), BRK and RTI (R268, R269) and NMI entry (R410, R414).
-/

namespace Sys2Proof.Proofs

open Sys2Proof.Machine Sys2Proof.Claims

variable {s t u : State} {n k : Nat}

/-! ### Cells of several pushes and pulls -/

theorem stackCell_push (d : Byte) (s : State) (hn : n < 255) : stackCell (push d s).cpu.sp n = stackCell s.cpu.sp (n + 1) := by
  have := s.cpu.sp.isLt
  rw [push_sp, stackCell, stackCell, byte_sub_one_toNat]
  omega

theorem stackCell_inj {sp : Byte} (hn : n < 256) (hk : k < 256) (h : stackCell sp n = stackCell sp k) : n = k := by
  have := sp.isLt
  rw [stackCell, stackCell] at h
  omega

/-- The pulls after `n` pushes take their cells from the last one back. -/
theorem pullCell_of_spDown (h : SpDown n s t) (hn : n ≤ 256) (hk : k < n) :
    pullCell t.cpu.sp k = stackCell s.cpu.sp (n - 1 - k) := by
  have := s.cpu.sp.isLt
  rw [pullCell, h, stackCell]
  omega

/-- The pulls after a pull. -/
theorem pullCell_afterPull (s : State) (k : Nat) : pullCell (afterPull s).cpu.sp k = pullCell s.cpu.sp (k + 1) := by
  have hsp : (afterPull s).cpu.sp.toNat = (s.cpu.sp.toNat + 1) % 256 := BitVec.toNat_add s.cpu.sp 1
  rw [pullCell, pullCell, hsp]
  omega

theorem pulledWord_eq (s : State) :
    pulledWord s = wordOf (s.bus.ram.read (pullCell s.cpu.sp 0)) (s.bus.ram.read (pullCell s.cpu.sp 1)) := by
  rw [pulledWord, pulledByte_eq_read, pulledByte_eq_read, pullCell_afterPull, afterPull_bus]

/-- As many pulls as pushes bring SP back. -/
theorem sp_eq_of_spDown_spUp (hdown : SpDown n s t) (hup : SpUp n t u) (hn : n ≤ 256) : u.cpu.sp = s.cpu.sp := by
  have := s.cpu.sp.isLt
  apply BitVec.eq_of_toNat_eq
  rw [hup, hdown]
  omega

theorem spUp_of_sp_eq_add (h : t.cpu.sp = s.cpu.sp + BitVec.ofNat 8 n) : SpUp n s t := by
  rw [SpUp, h, BitVec.toNat_add, BitVec.toNat_ofNat, Nat.add_mod_mod]

theorem spDown_trans {m : Nat} (h : SpDown m s t) (h' : SpDown n t u) (hmn : m + n ≤ 256) : SpDown (m + n) s u := by
  rw [SpDown] at h h' ⊢
  omega

theorem keepsAXY_trans (h : KeepsAXY s t) (h' : KeepsAXY t u) : KeepsAXY s u := by
  obtain ⟨ha, hx, hy⟩ := h
  obtain ⟨ha', hx', hy'⟩ := h'
  exact ⟨ha'.trans ha, hx'.trans hx, hy'.trans hy⟩

theorem onlyCpuAndRam_trans {cells cells' : List Nat} (h : OnlyCpuAndRam cells s t) (h' : OnlyCpuAndRam cells' t u) :
    OnlyCpuAndRam (cells ++ cells') s u := by
  obtain ⟨hcfg, hppu, htrace, hbus, hram⟩ := h
  obtain ⟨hcfg', hppu', htrace', hbus', hram'⟩ := h'
  refine ⟨hcfg'.trans hcfg, hppu'.trans hppu, htrace'.trans htrace, by rw [hbus', hbus], fun i hi => ?_⟩
  rw [List.mem_append, not_or] at hi
  exact (hram' i hi.2).trans (hram i hi.1)

/-- A change of the CPU group alone. -/
theorem onlyCpuAndRam_of_cpu (hcfg : t.cfg = s.cfg) (hbus : t.bus = s.bus) (hppu : t.ppu = s.ppu) (htrace : t.trace = s.trace) :
    OnlyCpuAndRam [] s t :=
  ⟨hcfg, hppu, htrace, by rw [hbus], fun _ _ => by rw [hbus]⟩

theorem hiByte_eq_highOf (w : Word) : hiByte w = highOf w := by
  rw [← BitVec.toNat_inj, hiByte_toNat, highOf, BitVec.toNat_ofNat]
  have := w.isLt
  omega

theorem loByte_eq_lowOf (w : Word) : loByte w = lowOf w := by
  rw [← BitVec.toNat_inj, loByte_toNat, lowOf, BitVec.toNat_ofNat]

/-- The word that two cells hold after its push. -/
theorem lowOf_add_highOf (w : Word) : (lowOf w).toNat + 256 * (highOf w).toNat = w.toNat := by
  rw [← loByte_eq_lowOf, ← hiByte_eq_highOf, ← wordOf_toNat, wordOf_loByte_hiByte]

/-! ### A word pushed -/

/-- A word's bytes lie in two cells, high byte first, and the rest of the machine but SP is as it was (R137). -/
structure PushedWord (w : Word) (s t : State) : Prop where
  high : t.bus.ram.read (stackCell s.cpu.sp 0) = highOf w
  low : t.bus.ram.read (stackCell s.cpu.sp 1) = lowOf w
  frame : OnlyCpuAndRam [stackCell s.cpu.sp 0, stackCell s.cpu.sp 1] s t
  sp : SpDown 2 s t

theorem pushWord_spec (w : Word) (s : State) : PushedWord w s (pushWord w s) := by
  have hcell : stackCell (push (hiByte w) s).cpu.sp 0 = stackCell s.cpu.sp 1 := stackCell_push _ s (by decide)
  have hframe := push_onlyCpuAndRam (loByte w) (push (hiByte w) s)
  have hlow := read_push_stackCell (loByte w) (push (hiByte w) s)
  rw [hcell] at hframe hlow
  have hhigh : (pushWord w s).bus.ram.read (stackCell s.cpu.sp 0) = hiByte w := by
    obtain ⟨-, -, -, -, hram⟩ := hframe
    rw [pushWord, hram, read_push_stackCell]
    exact fun h => absurd (stackCell_inj (by decide) (by decide) (List.mem_singleton.1 h)) (by decide)
  exact
    { high := hhigh.trans (hiByte_eq_highOf w)
      low := hlow.trans (loByte_eq_lowOf w)
      frame := onlyCpuAndRam_trans (push_onlyCpuAndRam (hiByte w) s) hframe
      sp := spDown_trans (push_spDown (hiByte w) s) (push_spDown (loByte w) _) (by decide) }

/-! ### JSR and RTS -/

theorem jsr_spec (s : State) (w : Word) :
    ∃ t, exec (.jsr w) s = .next t ∧ PushedWord (BitVec.ofNat 16 (s.cpu.pc.toNat + 2)) s t ∧ KeepsAXY s t ∧
      t.cpu.p = s.cpu.p ∧ Moves w.toNat 5 s t := by
  have hret : s.cpu.pc + 2 = BitVec.ofNat 16 (s.cpu.pc.toNat + 2) := BitVec.add_def s.cpu.pc 2
  obtain ⟨hhigh, hlow, hframe, hsp⟩ := pushWord_spec (s.cpu.pc + 2) s
  rw [← hret]
  refine ⟨_, rfl, ⟨hhigh, hlow, hframe, hsp⟩, ⟨rfl, rfl, rfl⟩, rfl, ?_, rfl, rfl, rfl⟩
  rw [BitVec.ofNat_toNat, BitVec.setWidth_eq]
  rfl

theorem rts_spec (s : State) :
    let lo := s.bus.ram.read (pullCell s.cpu.sp 0)
    let hi := s.bus.ram.read (pullCell s.cpu.sp 1)
    ∃ t, exec .rts s = .next t ∧ t.bus = s.bus ∧ OnlyCpuAndRam [] s t ∧ SpUp 2 s t ∧ KeepsAXY s t ∧
      t.cpu.p = s.cpu.p ∧ Moves (lo.toNat + 256 * hi.toNat + 1) 5 s t := by
  intro lo hi
  refine ⟨_, rfl, rfl, onlyCpuAndRam_of_cpu rfl rfl rfl rfl, spUp_of_sp_eq_add (BitVec.add_assoc _ _ _), ⟨rfl, rfl, rfl⟩, rfl, ?_,
    rfl, rfl, rfl⟩
  rw [retire_pc, pulledWord_eq, wordOf_eq_ofNat]
  exact (BitVec.ofNat_add _ 1).symm

/-- Settles O32: the pull of RTS finds the two cells that JSR's push filled. -/
theorem subroutines : Obligations.Subroutines := by
  refine ⟨⟨decodesWord_of_rowOf rfl, decodesAlone_of_rowOf rfl⟩, fun s w => ?_, rts_spec, fun s t w h => ?_⟩
  · obtain ⟨t, heq, ⟨hhigh, hlow, hframe, hsp⟩, hkeeps⟩ := jsr_spec s w
    exact ⟨t, heq, hhigh, hlow, hframe, hsp, hkeeps⟩
  · obtain ⟨t', heq, ⟨hhigh, hlow, -, hdown⟩, -⟩ := jsr_spec s w
    rw [h] at heq
    cases heq
    obtain ⟨u, heq, -, -, hup, -, -, hpc, -⟩ := rts_spec t
    rw [pullCell_of_spDown hdown (by decide) (by decide), pullCell_of_spDown hdown (by decide) (by decide), hlow, hhigh,
      lowOf_add_highOf, BitVec.toNat_ofNat] at hpc
    refine ⟨u, heq, hpc.trans ?_, sp_eq_of_spDown_spUp hdown hup (by decide)⟩
    rw [← BitVec.toNat_inj, BitVec.toNat_ofNat, BitVec.toNat_ofNat]
    omega

/-! ### BRK and NMI entry -/

theorem vectorAt_eq_romWord (cfg : Config) {a : Word} (ha : a.toNat + 1 < 65536) : vectorAt cfg a = romWord cfg a.toNat := by
  have hnext : (a + 1).toNat = a.toNat + 1 := (BitVec.toNat_add a 1).trans (Nat.mod_eq_of_lt ha)
  rw [vectorAt, wordOf_eq_ofNat, prgRomByte, prgRomByte, hnext]
  rfl

/-- What BRK and NMI entry share (R268, R410): the return address and a status byte in three cells, I set, PC taken from a vector,
and the rest of the machine as it was. -/
structure Interrupted (ret : Word) (status : Byte) (handler : Word) (idle : Nat) (s t : State) : Prop where
  high : t.bus.ram.read (stackCell s.cpu.sp 0) = highOf ret
  low : t.bus.ram.read (stackCell s.cpu.sp 1) = lowOf ret
  status : t.bus.ram.read (stackCell s.cpu.sp 2) = status
  frame : OnlyCpuAndRam [stackCell s.cpu.sp 0, stackCell s.cpu.sp 1, stackCell s.cpu.sp 2] s t
  sp : SpDown 3 s t
  registers : KeepsAXY s t
  disable : t.cpu.p.getLsbD 2 = true
  flags : KeepsBits [2] s.cpu.p t.cpu.p
  moves : Moves handler.toNat idle s t

theorem takeInterrupt_spec (ret : Word) (status : Byte) {vector : Word} (hvector : vector.toNat + 1 < 65536) (idle : Nat)
    (s : State) :
    Interrupted ret status (romWord s.cfg vector.toNat) idle s (charge idle (takeInterrupt ret status vector s)) := by
  obtain ⟨hhigh, hlow, hframe, hsp⟩ := pushWord_spec ret s
  have hcell : stackCell (pushWord ret s).cpu.sp 0 = stackCell s.cpu.sp 2 :=
    (stackCell_push _ _ (by decide)).trans (stackCell_push _ _ (by decide))
  have hpush := push_onlyCpuAndRam status (pushWord ret s)
  have hstatus := read_push_stackCell status (pushWord ret s)
  rw [hcell] at hpush hstatus
  have hkept : ∀ n < 2, (push status (pushWord ret s)).bus.ram.read (stackCell s.cpu.sp n) =
      (pushWord ret s).bus.ram.read (stackCell s.cpu.sp n) := fun n hn => by
    obtain ⟨-, -, -, -, hram⟩ := hpush
    refine hram _ fun h => ?_
    have := stackCell_inj (by omega) (by decide) (List.mem_singleton.1 h)
    omega
  exact
    { high := (hkept 0 (by decide)).trans hhigh
      low := (hkept 1 (by decide)).trans hlow
      status := hstatus
      frame := onlyCpuAndRam_trans hframe hpush
      sp := spDown_trans hsp (push_spDown status _) (by decide)
      registers := ⟨rfl, rfl, rfl⟩
      disable := getLsbD_setFlag .interruptDisable true s.cpu.p 2 (by decide)
      flags := ((FlagChange.refl _ s.cpu.p).setFlag .interruptDisable true (List.mem_singleton_self _)).flags
      moves := by
        rw [← vectorAt_eq_romWord s.cfg hvector]
        refine ⟨?_, rfl, rfl, rfl⟩
        rw [BitVec.ofNat_toNat, BitVec.setWidth_eq]
        rfl }

theorem execBrk_halt (h : s.cfg.brkMode = .halt) :
    execBrk s = .next (charge 6 (s.mapCpu fun c => { c with runStatus := .halted })) := by
  rw [execBrk, h]

theorem brk_vector_spec (h : s.cfg.brkMode = .vector) :
    ∃ t, exec .brk s = .next t ∧
      Interrupted (BitVec.ofNat 16 (s.cpu.pc.toNat + 2)) (pushedByInstruction s.cpu.p) (romWord s.cfg 0xFFFE) 6 s t := by
  have hret : s.cpu.pc + 2 = BitVec.ofNat 16 (s.cpu.pc.toNat + 2) := BitVec.add_def s.cpu.pc 2
  rw [exec_eq_run, classOf, InstrClass.run, execBrk, h, ← hret]
  exact ⟨_, rfl, takeInterrupt_spec _ _ (vector := 0xFFFE) (by decide) 6 s⟩

/-- Settles O34: a halt, or the three pushes of an interrupt. -/
theorem breakHaltsOrTraps : Obligations.Break := by
  refine ⟨decodesAlone_of_rowOf rfl, fun s h => execBrk_halt h, fun s h => ?_⟩
  obtain ⟨t, heq, hhigh, hlow, hstatus, hframe, hsp, hregisters, hdisable, hflags, hmoves⟩ := brk_vector_spec h
  refine ⟨t, heq, hhigh, hlow, fun k hk => ?_, hframe, hsp, hregisters, hdisable, hflags, hmoves⟩
  rw [hstatus, getLsbD_pushedByInstruction _ k hk]


theorem getLsbD_pushedByNmi (p : Byte) (k : Nat) (hk : k < 8) :
    (pushedByNmi p).getLsbD k = (decide (k ≠ 4) && (p.getLsbD k || decide (k = 5))) := by
  rw [pushedByNmi_eq, getLsbD_pulledStatus p k hk]

/-- NMI entry is an interrupt of the machine with its NMI flag cleared (R410). -/
theorem nmiEntry_spec (s : State) :
    Interrupted s.cpu.pc (pushedByNmi s.cpu.p) (romWord s.cfg 0xFFFA) 7
      (s.mapBus fun b => { b with nmiGenerated := false }) (nmiEntry s) :=
  takeInterrupt_spec s.cpu.pc (pushedByNmi s.cpu.p) (vector := 0xFFFA) (by decide) 7
    (s.mapBus fun b => { b with nmiGenerated := false })

/-- A DMA cycle leaves the NMI flag (R311). -/
theorem dmaCycle_nmiGenerated (s : State) : Lands (fun t => t.bus.nmiGenerated = s.bus.nmiGenerated) (dmaCycle s) := by
  rw [dmaCycle]
  split
  · rfl
  · split
    · refine (memRead_lands (P := fun t => t.bus.nmiGenerated = s.bus.nmiGenerated) _ s rfl fun v t hread => ?_).andThen
        fun _ _ h => h
      rw [(memRead_frame hread).bus]
    · rfl

theorem idleStep_nmiGenerated (h : idleStep s = .next t) : t.bus.nmiGenerated = s.bus.nmiGenerated := by
  rw [idleStep] at h
  refine settle_keeps (P := fun u => u.bus.nmiGenerated = s.bus.nmiGenerated) ?_ (fun _ hu => hu) h
  refine Lands.andThen ?_ fun _ _ hu => hu
  split
  · exact dmaCycle_nmiGenerated s
  · rfl

/-- Settles O36: the entry is an interrupt through `$FFFA`, which a fetch sub-step makes first and an idle one never. -/
protected theorem nmiEntry : Obligations.NmiEntry := by
  refine ⟨fun s => ?_, fun s hrun hnone => ?_, fun s t hrun howed h => ?_⟩
  · obtain ⟨hhigh, hlow, hstatus, ⟨hcfg, hppu, htrace, hbus, hram⟩, hsp, hregisters, hdisable, hflags, hmoves⟩ := nmiEntry_spec s
    refine ⟨hhigh, hlow, fun k hk => ?_, hram, hbus, hcfg, hppu, htrace, hsp, hregisters, hdisable, hflags, hmoves⟩
    exact (congrArg (BitVec.getLsbD · k) hstatus).trans (getLsbD_pushedByNmi _ k hk)
  · rw [cpuStep_eq_fetchStep hrun hnone, fetchStep_eq_counted]
    exact ⟨fun hnmi => by rw [hnmi]; rfl, fun hnmi => by rw [hnmi]; rfl⟩
  · exact idleStep_nmiGenerated (cpuStep_eq_idleStep hrun howed ▸ h)

/-! ### RTI -/

/-- RTI is three pulls, of P and then of PC, and the cycles. -/
theorem rti_spec (s : State) :
    ∃ u, exec .rti s = .next (charge 5 u) ∧ PulledInto (s.bus.ram.read (pullCell s.cpu.sp 0)) u.cpu.p ∧ SpUp 3 s u ∧
      KeepsAXY s u ∧ u.bus = s.bus ∧ OnlyCpuAndRam [] s u ∧
      u.cpu.pc = wordOf (s.bus.ram.read (pullCell s.cpu.sp 1)) (s.bus.ram.read (pullCell s.cpu.sp 2)) ∧
      u.cpu.idleCycles = s.cpu.idleCycles ∧ u.cpu.cycles = s.cpu.cycles ∧ u.cpu.runStatus = s.cpu.runStatus := by
  refine ⟨returnFromInterrupt s, rfl, fun k hk => ?_, spUp_of_sp_eq_add (n := 3) ?_, ⟨rfl, rfl, rfl⟩,
    returnFromInterrupt_bus s, onlyCpuAndRam_of_cpu (returnFromInterrupt_cfg s) (returnFromInterrupt_bus s)
      (returnFromInterrupt_ppu s) (returnFromInterrupt_trace s), ?_, returnFromInterrupt_idleCycles s,
    returnFromInterrupt_cycles s, returnFromInterrupt_runStatus s⟩
  · rw [returnFromInterrupt_p, getLsbD_pulledStatus _ k hk, pulledByte_eq_read]
  · change s.cpu.sp + 1 + 1 + 1 = s.cpu.sp + 3
    rw [BitVec.add_assoc, BitVec.add_assoc]
    rfl
  · have hpc := pulledWord_eq ((afterPull s).mapCpu fun c => { c with p := pulledStatus (pulledByte s) })
    rwa [State.mapCpu_cpu, pullCell_afterPull, pullCell_afterPull] at hpc

/-- Settles O35: the pulls leave the cycles, which are charged after them. -/
protected theorem returnFromInterrupt : Obligations.ReturnFromInterrupt := by
  refine ⟨decodesAlone_of_rowOf rfl, fun s => ?_⟩
  obtain ⟨u, heq, hp, hsp, hregisters, hbus, hframe, hpc, hidle, hcycles, hstatus⟩ := rti_spec s
  rw [wordOf_eq_ofNat] at hpc
  exact ⟨charge 5 u, heq, hp, hsp, hregisters, hbus, hframe, hpc, congrArg (· + 5) hidle, hcycles, hstatus⟩

/-! ### The return -/

/-- Pulling the status that BRK or NMI entry pushed gives P back: both pushed every bit but 4 and 5, which R16 fixes. -/
theorem pulledInto_unique {p q b : Byte} (hp : StatusOk p) (hb : ∀ k, k < 8 → k ≠ 4 → k ≠ 5 → b.getLsbD k = p.getLsbD k)
    (hq : PulledInto b q) : q = p := by
  apply BitVec.eq_of_getLsbD_eq
  intro k hk
  obtain ⟨h5, h4⟩ := hp
  rw [hq k hk]
  by_cases hk4 : k = 4
  · subst hk4
    exact h4.symm
  · by_cases hk5 : k = 5
    · subst hk5
      simp [h5]
    · simp [hk4, hk5, hb k hk hk4 hk5]

/-- RTI right after an interrupt goes to the address pushed, with P, SP and the registers as they were before it (R269, R414). -/
theorem rti_of_interrupted {ret handler : Word} {status : Byte} {idle : Nat} (hp : StatusOk s.cpu.p)
    (hstatus : ∀ k, k < 8 → k ≠ 4 → k ≠ 5 → status.getLsbD k = s.cpu.p.getLsbD k)
    (h : Interrupted ret status handler idle s t) :
    ∃ u, exec .rti t = .next u ∧ u.cpu.pc = ret ∧ u.cpu.p = s.cpu.p ∧ u.cpu.sp = s.cpu.sp ∧ KeepsAXY s u := by
  obtain ⟨u, heq, hpulled, hup, hregisters, -, -, hpc, -⟩ := rti_spec t
  rw [pullCell_of_spDown h.sp (by decide) (by decide), h.status] at hpulled
  rw [pullCell_of_spDown h.sp (by decide) (by decide), pullCell_of_spDown h.sp (by decide) (by decide), h.low, h.high,
    ← loByte_eq_lowOf, ← hiByte_eq_highOf, wordOf_loByte_hiByte] at hpc
  exact ⟨charge 5 u, heq, hpc, pulledInto_unique hp hstatus hpulled, sp_eq_of_spDown_spUp h.sp hup (by decide),
    keepsAXY_trans h.registers hregisters⟩

/-- Settles O37: RTI pulls from the cells that the interrupt pushed to. -/
theorem interruptsReturn : Obligations.InterruptsReturn := by
  intro s hp
  refine ⟨rti_of_interrupted (s := s.mapBus _) hp (fun k hk h4 h5 => ?_) (nmiEntry_spec s), fun hmode => ?_⟩
  · simp [getLsbD_pushedByNmi _ k hk, h4, h5]
  · obtain ⟨u, hbrk, hint⟩ := brk_vector_spec hmode
    obtain ⟨t, hrti, hreturned⟩ := rti_of_interrupted hp (fun k hk h4 h5 => by
      simp [getLsbD_pushedByInstruction _ k hk, h4, h5]) hint
    exact ⟨u, t, hbrk, hrti, hreturned⟩

end Sys2Proof.Proofs
end

section
/-!
SUPPORT. The devices on the CPU bus (R300 to R312): which addresses are unbacked, the controllers and a row of their reads, and
OAM DMA from the write that starts it to the last byte copied.
-/

namespace Sys2Proof.Proofs

open Sys2Proof.Machine Sys2Proof.Claims

variable {s t : State} {a : Word}

/-! ### Unbacked addresses -/

theorem regionOf_ppuRegisterAt (cfg : Config) {k : Nat} (ha : PpuRegisterAt k a) : regionOf cfg a = .ppu (ppuRegOf k) := by
  obtain ⟨hlo, hhi, hk⟩ := ha
  have hreg : ppuRegOf a.toNat = ppuRegOf k := by
    rw [ppuRegOf, ppuRegOf, hk, show k % 8 = k by omega]
  exact (regionOf_ppu cfg a _).2 ⟨hlo, hhi, hreg⟩

/-- `$4000–$401F` without `$4014`, `$4016` and `$4017` (R312). -/
theorem regionOf_stub (cfg : Config) (hlo : 0x4000 ≤ a.toNat) (hhi : a.toNat < 0x4020) (h14 : a.toNat ≠ 0x4014)
    (h16 : a.toNat ≠ 0x4016) (h17 : a.toNat ≠ 0x4017) : regionOf cfg a = .stub := by
  rw [regionOf]
  simp only [h14, h16, h17, hhi, show ¬a.toNat < 0x2000 by omega, show ¬a.toNat < 0x4000 by omega, if_false, if_true]

theorem memRead_stub (h : regionOf s.cfg a = .stub) : memRead a s = openBusRead s := by
  rw [memRead, h]

theorem memRead_oamDma (h : regionOf s.cfg a = .oamDma) : memRead a s = openBusRead s := by
  rw [memRead, h]

theorem memRead_ppuRegisterAt {k : Nat} (ha : PpuRegisterAt k a) (s : State) : memRead a s = ppuRegRead (ppuRegOf k) s := by
  rw [memRead, regionOf_ppuRegisterAt s.cfg ha]

theorem memWrite_ppuRegisterAt {k : Nat} (ha : PpuRegisterAt k a) (d : Byte) (s : State) :
    memWrite a d s = ppuRegWrite (ppuRegOf k) d s := by
  rw [memWrite, regionOf_ppuRegisterAt s.cfg ha]

/-- Settles O43: each of these reads is an OPEN_BUS read, and a write to a stub or to `$4017` changes nothing. -/
theorem openBusAndStubs : Obligations.OpenBusAndStubs := by
  refine ⟨fun s a ha => ?_, fun s a d ha => ?_⟩
  · change memRead a s = openBusRead s
    rcases ha with ha | ha | ha | ha | ha | ha
    · by_cases h14 : a.toNat = 0x4014
      · exact memRead_oamDma ((regionOf_oamDma _ _).2 (BitVec.eq_of_toNat_eq h14))
      · exact memRead_stub (regionOf_stub _ (by omega) (by omega) h14 (by omega) (by omega))
    · exact memRead_stub (regionOf_stub _ (by omega) (by omega) (by omega) (by omega) (by omega))
    all_goals exact memRead_ppuRegisterAt ha s
  · by_cases h17 : a = 0x4017
    · rw [h17]
      rfl
    · have h17' : a.toNat ≠ 0x4017 := fun h => h17 (BitVec.eq_of_toNat_eq h)
      rw [memWrite, regionOf_stub s.cfg (by omega) (by omega) (by omega) (by omega) h17']

/-! ### The controllers -/

/-- The value of a controller read is 64 and the button at the cursor (R300). -/
theorem padValue_eq (pad : Pad) : padValue pad = BitVec.ofNat 8 (64 + (pad.buttons.getLsbD pad.cursor.toNat).toNat) := by
  have hbit : (pad.buttons >>> pad.cursor.toNat) &&& 1 = BitVec.ofNat 8 (pad.buttons.getLsbD pad.cursor.toNat).toNat := by
    rw [show (1 : Byte) = 1#8 from rfl, BitVec.and_one_eq_setWidth_ofBool_getLsbD, BitVec.getLsbD_ushiftRight, Nat.add_zero]
    cases pad.buttons.getLsbD pad.cursor.toNat <;> rfl
  rw [padValue, hbit]
  cases pad.buttons.getLsbD pad.cursor.toNat <;> rfl

/-- The cursor moves on with the strobe off, up to 7 (R300). -/
theorem padAdvance_eq (strobe : Bool) (pad : Pad) :
    padAdvance strobe pad =
      if strobe = false ∧ pad.cursor.toNat < 7 then { pad with cursor := BitVec.ofNat 3 (pad.cursor.toNat + 1) } else pad := by
  have hnext : pad.cursor + 1 = BitVec.ofNat 3 (pad.cursor.toNat + 1) := BitVec.add_def pad.cursor 1
  rw [padAdvance, hnext]
  simp only [Bool.and_eq_true, Bool.not_eq_true', decide_eq_true_eq]

/-- With the strobe off, the cursor after `n` reads from cursor 0. -/
theorem padAdvance_ofNat (buttons : Byte) (n : Nat) :
    padAdvance false ⟨buttons, BitVec.ofNat 3 (min n 7)⟩ = ⟨buttons, BitVec.ofNat 3 (min (n + 1) 7)⟩ := by
  have hcursor : (BitVec.ofNat 3 (min n 7)).toNat = min n 7 := by
    rw [BitVec.toNat_ofNat]
    omega
  rw [padAdvance_eq, hcursor]
  split
  · rw [show min n 7 + 1 = min (n + 1) 7 by omega]
  · next hlast =>
    have hseven : ¬min n 7 < 7 := fun hlt => hlast ⟨rfl, hlt⟩
    rw [show min n 7 = min (n + 1) 7 by omega]

/-- A read of the address is a read of the port (R300). -/
def ReadsPad (a : Word) (pad : Bus → Pad) : Prop :=
  ∀ s, ∃ t, memRead a s = .done (padValue (pad s.bus)) t ∧ pad t.bus = padAdvance s.bus.strobe (pad s.bus) ∧
    t.bus.strobe = s.bus.strobe

theorem memRead_pad0 (s : State) :
    memRead 0x4016 s =
      .done (padValue s.bus.pad0) (s.mapBus fun b => { b with pad0 := padAdvance b.strobe b.pad0 }) := rfl

theorem memRead_pad1 (s : State) :
    memRead 0x4017 s =
      .done (padValue s.bus.pad1) (s.mapBus fun b => { b with pad1 := padAdvance b.strobe b.pad1 }) := rfl

theorem readsPad_pad0 : ReadsPad 0x4016 Bus.pad0 := fun s => ⟨_, memRead_pad0 s, rfl, rfl⟩

theorem readsPad_pad1 : ReadsPad 0x4017 Bus.pad1 := fun s => ⟨_, memRead_pad1 s, rfl, rfl⟩

theorem memWrite_pad0 (d : Byte) (s : State) : memWrite 0x4016 d s = .done () (s.mapBus (writeStrobe d)) := rfl

theorem writeStrobe_odd {d : Byte} (hd : d.toNat % 2 = 1) (b : Bus) :
    writeStrobe d b =
      { b with strobe := true, pad0 := { b.pad0 with cursor := 0 }, pad1 := { b.pad1 with cursor := 0 } } := by
  rw [writeStrobe, byte_bit0, if_pos (decide_eq_true hd)]

theorem writeStrobe_even {d : Byte} (hd : d.toNat % 2 = 0) (b : Bus) : writeStrobe d b = { b with strobe := false } := by
  rw [writeStrobe, byte_bit0, if_neg (by rw [decide_eq_true_eq]; omega)]

/-- The strobe is off and both cursors are at 0, with the buttons given: the state that the usual sequence reads from (R301). -/
structure Armed (buttons0 buttons1 : Byte) (s : State) : Prop where
  strobe : s.bus.strobe = false
  pad0 : s.bus.pad0 = ⟨buttons0, 0⟩
  pad1 : s.bus.pad1 = ⟨buttons1, 0⟩

theorem armed_afterWrites {one zero : Byte} (hone : one.toNat % 2 = 1) (hzero : zero.toNat % 2 = 0) (s : State) :
    Armed s.bus.pad0.buttons s.bus.pad1.buttons (afterWrite 0x4016 zero (afterWrite 0x4016 one s)) := by
  simp only [afterWrite, memWrite_pad0]
  constructor <;> simp only [State.mapBus_bus, writeStrobe_odd hone, writeStrobe_even hzero]

/-- With the strobe off, `n` reads move the port's cursor `n` places, up to 7. -/
theorem ReadsPad.afterReads {pad : Bus → Pad} (h : ReadsPad a pad) {buttons : Byte} (n k : Nat)
    (hstrobe : s.bus.strobe = false) (hpad : pad s.bus = ⟨buttons, BitVec.ofNat 3 (min k 7)⟩) :
    pad (Claims.afterReads a n s).bus = ⟨buttons, BitVec.ofNat 3 (min (k + n) 7)⟩ := by
  induction n generalizing s k with
  | zero => exact hpad
  | succ n ih =>
    obtain ⟨t, hread, hmoved, hkept⟩ := h s
    rw [Claims.afterReads, hread, show k + (n + 1) = k + 1 + n by omega]
    refine ih (k + 1) (hkept.trans hstrobe) ?_
    rw [hmoved, hstrobe, hpad, padAdvance_ofNat]

/-- From cursor 0, the read after `n` reads answers button `n`, or button 7 from then on (R300, R301). -/
theorem ReadsPad.value_afterReads {pad : Bus → Pad} (h : ReadsPad a pad) {buttons : Byte} (n : Nat)
    (hstrobe : s.bus.strobe = false) (hpad : pad s.bus = ⟨buttons, 0⟩) :
    ∃ t, memRead a (Claims.afterReads a n s) = .done (BitVec.ofNat 8 (64 + (buttons.getLsbD (min n 7)).toNat)) t := by
  obtain ⟨t, hread, -, -⟩ := h (Claims.afterReads a n s)
  have hcursor : (BitVec.ofNat 3 (min (0 + n) 7)).toNat = min n 7 := by
    rw [BitVec.toNat_ofNat]
    omega
  rw [h.afterReads n 0 hstrobe hpad, padValue_eq, hcursor] at hread
  exact ⟨t, hread⟩

/-- Settles O44: one read and one write, and then the reads in a row by induction on their number. -/
theorem controllers : Obligations.Controllers := by
  refine ⟨fun s => ?_, fun s d => ⟨fun hd => ?_, fun hd => ?_⟩, fun s one zero n hone hzero => ?_⟩
  · intro moved value
    have hmoved : ∀ pad, moved pad = padAdvance s.bus.strobe pad := fun pad => (padAdvance_eq _ pad).symm
    have hvalue : ∀ pad, value pad = padValue pad := fun pad => (padValue_eq pad).symm
    rw [hmoved, hmoved, hvalue, hvalue]
    exact ⟨memRead_pad0 s, memRead_pad1 s⟩
  · rw [memWrite_pad0, State.mapBus, writeStrobe_odd hd]
  · rw [memWrite_pad0, State.mapBus, writeStrobe_even hd]
  · obtain ⟨hstrobe, hpad0, hpad1⟩ := armed_afterWrites hone hzero s
    exact ⟨readsPad_pad0.value_afterReads n hstrobe hpad0, readsPad_pad1.value_afterReads n hstrobe hpad1⟩

/-! ### The start of OAM DMA -/

theorem memWrite_oamDma (d : Byte) (s : State) : memWrite 0x4014 d s = .done () (startDma d s) := rfl

/-- Settles O45: the stall is 513 cycles and the odd cycle. -/
theorem dmaStart : Obligations.DmaStart := by
  intro s d
  have hstall : (if s.cpu.cycles % 2 = 0 then 513 else 514) = 513 + s.cpu.cycles % 2 := by
    split <;> omega
  rw [hstall]
  exact memWrite_oamDma d s

/-! ### The whole of an OAM DMA -/

/-- The machine during the stall that a write to `$4014` at `s` began: so many of its cycles have passed, the DMA is as given, and
OAMADDR has moved on by the bytes copied (R306, R307). -/
def stalled (s : State) (elapsed : Nat) (dma : OamDma) (oam : Memory 8) : State :=
  { s with
    cpu := { s.cpu with
      idleCycles := s.cpu.idleCycles + (513 + s.cpu.cycles % 2) - elapsed
      cycles := s.cpu.cycles + elapsed }
    bus := { s.bus with dma := dma }
    ppu := { s.ppu with oam := oam, oamAddr := BitVec.ofNat 8 (s.ppu.oamAddr.toNat + dma.count) } }

/-- The DMA about to read byte `count` of the page, if there is one left. -/
def dmaReading (page : Byte) (count : Nat) (latch : Byte) : OamDma where
  active := decide (count ≠ 256)
  page := page
  count := count
  align := 0
  phase := .read
  latch := latch

theorem startDma_eq_stalled (page : Byte) (s : State) :
    startDma page s =
      stalled s 0 { dmaReading page 0 s.bus.dma.latch with align := 1 + s.cpu.cycles % 2 } s.ppu.oam := by
  have haddr : s.ppu.oamAddr = BitVec.ofNat 8 (s.ppu.oamAddr.toNat + 0) := by
    rw [Nat.add_zero, BitVec.ofNat_toNat, BitVec.setWidth_eq]
  rw [stalled, dmaReading, ← haddr]
  rfl

/-- The stall changes no byte that `peek` reads. -/
theorem peek_stalled (s : State) (elapsed : Nat) (dma : OamDma) (oam : Memory 8) (a : Word) :
    peek (stalled s elapsed dma oam) a = peek s a := rfl

theorem cpuSteps_add {m n : Nat} (h : cpuSteps m s = .next t) : cpuSteps (m + n) s = cpuSteps n t := by
  induction m generalizing s with
  | zero =>
    cases h
    rw [Nat.zero_add]
  | succ m ih =>
    rw [Nat.succ_add, cpuSteps]
    rw [cpuSteps] at h
    cases hstep : cpuStep s with
    | next u =>
      rw [hstep] at h
      exact ih h
    | fault f => rw [hstep] at h; cases h
    | refused r => rw [hstep] at h; cases h

section
variable {elapsed : Nat} {dma : OamDma} {oam : Memory 8}

/-- A sub-step of the stall idles, as long as a cycle of it is left. -/
theorem stalled_idles (hrun : s.cpu.runStatus = .running) (hleft : elapsed < 513 + s.cpu.cycles % 2) :
    (stalled s elapsed dma oam).cpu.runStatus = .running ∧ 0 < (stalled s elapsed dma oam).cpu.idleCycles := by
  refine ⟨hrun, ?_⟩
  simp only [stalled]
  omega

theorem cpuStep_stalled_align (hrun : s.cpu.runStatus = .running) (hleft : elapsed < 513 + s.cpu.cycles % 2)
    (hactive : dma.active = true) (halign : 0 < dma.align) :
    cpuStep (stalled s elapsed dma oam) = .next (stalled s (elapsed + 1) { dma with align := dma.align - 1 } oam) := by
  obtain ⟨hruns, howed⟩ := stalled_idles (dma := dma) (oam := oam) hrun hleft
  obtain ⟨-, hstep, -⟩ := idleSubStep _ hruns howed
  exact hstep hactive halign

/-- The alignment cycles, one sub-step each (R307). -/
theorem cpuSteps_stalled_align (n : Nat) (hrun : s.cpu.runStatus = .running) (hleft : elapsed + n ≤ 513 + s.cpu.cycles % 2)
    (hactive : dma.active = true) :
    cpuSteps n (stalled s elapsed { dma with align := n } oam) = .next (stalled s (elapsed + n) { dma with align := 0 } oam) := by
  induction n generalizing elapsed with
  | zero => rfl
  | succ n ih =>
    rw [cpuSteps, cpuStep_stalled_align (dma := { dma with align := n + 1 }) hrun (by omega) hactive (Nat.succ_pos n),
      ← Nat.add_assoc, Nat.add_right_comm]
    exact ih (by omega)

/-- A byte of the page, read in one sub-step and written to OAM in the next (R307). -/
theorem cpuSteps_stalled_byte {page latch v : Byte} {count : Nat} (hrun : s.cpu.runStatus = .running)
    (hleft : elapsed + 1 < 513 + s.cpu.cycles % 2) (hcount : count < 256)
    (hpeek : peek s (BitVec.ofNat 16 (256 * page.toNat + count)) = some v) :
    cpuSteps 2 (stalled s elapsed (dmaReading page count latch) oam) =
      .next (stalled s (elapsed + 2) (dmaReading page (count + 1) v)
        (oam.write ((s.ppu.oamAddr.toNat + count) % 256) v)) := by
  have hactive : (dmaReading page count latch).active = true := decide_eq_true (by omega)
  have hread : cpuStep (stalled s elapsed (dmaReading page count latch) oam) =
      .next (stalled s (elapsed + 1) { dmaReading page count latch with latch := v, phase := .write } oam) := by
    obtain ⟨hruns, howed⟩ := stalled_idles (elapsed := elapsed) (dma := dmaReading page count latch) (oam := oam) hrun
      (by omega)
    obtain ⟨-, -, hstep, -⟩ := idleSubStep _ hruns howed
    obtain ⟨hdone, -⟩ := hstep hactive rfl rfl hcount
    exact hdone v _ (memRead_of_peek hpeek)
  have hwrite : cpuStep (stalled s (elapsed + 1) { dmaReading page count latch with latch := v, phase := .write } oam) =
      .next (stalled s (elapsed + 2) (dmaReading page (count + 1) v)
        (oam.write ((s.ppu.oamAddr.toNat + count) % 256) v)) := by
    obtain ⟨hruns, howed⟩ := stalled_idles (dma := { dmaReading page count latch with latch := v, phase := .write })
      (oam := oam) hrun hleft
    obtain ⟨-, -, -, hstep⟩ := idleSubStep _ hruns howed
    have haddr : BitVec.ofNat 8 ((s.ppu.oamAddr.toNat + count) % 2 ^ 8 + 1) =
        BitVec.ofNat 8 (s.ppu.oamAddr.toNat + (count + 1)) := by
      rw [← BitVec.toNat_inj]
      simp only [BitVec.toNat_ofNat]
      omega
    refine (hstep hactive rfl rfl).trans ?_
    simp only [stalled, dmaReading, haddr, BitVec.toNat_ofNat]
    rfl
  rw [cpuSteps, hread]
  dsimp only
  rw [cpuSteps, hwrite]
  rfl

end

/-- The first `count` bytes of the page are in OAM, from the start address on (R307, D24). -/
def CopiedInto (oam : Memory 8) (s : State) (page : Byte) (count : Nat) : Prop :=
  ∀ n, n < count →
    peek s (BitVec.ofNat 16 (256 * page.toNat + n)) = some (oam.read ((s.ppu.oamAddr.toNat + n) % 256))

/-- One more byte goes to a cell that holds none of the bytes copied before it: there are at most 256. -/
theorem CopiedInto.write {oam : Memory 8} {page v : Byte} {count : Nat} (h : CopiedInto oam s page count) (hcount : count < 256)
    (hpeek : peek s (BitVec.ofNat 16 (256 * page.toNat + count)) = some v) :
    CopiedInto (oam.write ((s.ppu.oamAddr.toNat + count) % 256) v) s page (count + 1) := by
  intro n hn
  by_cases hlast : n = count
  · rw [hlast, Memory.read_write_self, hpeek]
  · rw [Memory.read_write_ne _ v (by omega)]
    exact h n (by omega)

/-- `count` bytes take two sub-steps each. -/
theorem cpuSteps_stalled_bytes {page latch : Byte} {oam : Memory 8} {elapsed : Nat} (hrun : s.cpu.runStatus = .running)
    (hplain : ∀ n, n < 256 → (peek s (BitVec.ofNat 16 (256 * page.toNat + n))).isSome) (count : Nat) (hcount : count ≤ 256)
    (hleft : elapsed + 2 * count ≤ 513 + s.cpu.cycles % 2) :
    ∃ latch' oam',
      cpuSteps (2 * count) (stalled s elapsed (dmaReading page 0 latch) oam) =
        .next (stalled s (elapsed + 2 * count) (dmaReading page count latch') oam') ∧ CopiedInto oam' s page count := by
  induction count with
  | zero => exact ⟨latch, oam, rfl, fun n hn => absurd hn (Nat.not_lt_zero n)⟩
  | succ count ih =>
    obtain ⟨latch', oam', hsteps, hcopied⟩ := ih (by omega) (by omega)
    obtain ⟨v, hpeek⟩ := Option.isSome_iff_exists.1 (hplain count hcount)
    refine ⟨v, _, ?_, hcopied.write hcount hpeek⟩
    rw [Nat.mul_succ, cpuSteps_add hsteps]
    exact cpuSteps_stalled_byte hrun (by omega) hcount hpeek

/-- Settles O47: the alignment cycles, then two sub-steps for each of 256 bytes, which use up the stall. -/
theorem dmaCopiesThePage : Obligations.DmaCopiesThePage := by
  intro s s0 page hrun hstart hplain
  rw [memWrite_oamDma, startDma_eq_stalled] at hstart
  cases hstart
  have halign := cpuSteps_stalled_align (elapsed := 0) (dma := dmaReading page 0 s.bus.dma.latch) (oam := s.ppu.oam)
    (1 + s.cpu.cycles % 2) hrun (by omega) rfl
  rw [Nat.zero_add] at halign
  obtain ⟨latch, oam, hbytes, hcopied⟩ := cpuSteps_stalled_bytes (latch := s.bus.dma.latch) (oam := s.ppu.oam)
    (elapsed := 1 + s.cpu.cycles % 2) hrun hplain 256 (Nat.le_refl _) (by omega)
  have hsteps := (cpuSteps_add (n := 2 * 256) halign).trans hbytes
  rw [show 1 + s.cpu.cycles % 2 + 2 * 256 = 513 + s.cpu.cycles % 2 by omega] at hsteps
  have haddr : BitVec.ofNat 8 (s.ppu.oamAddr.toNat + 256) = s.ppu.oamAddr := by
    rw [← BitVec.toNat_inj, BitVec.toNat_ofNat]
    have := s.ppu.oamAddr.isLt
    omega
  refine ⟨_, hsteps, hcopied, haddr, rfl, rfl, ?_, ?_, rfl, rfl, rfl⟩
  · simp only [stalled, Nat.add_sub_cancel]
  · simp only [stalled, dmaReading, haddr]

end Sys2Proof.Proofs
end

section
/-!
SUPPORT. The PPU registers (R330 to R347) and the scroll increments (R369 to R372): each new value of t or v is a concatenation of
fields of the old ones and of the byte written, and the statements' arithmetic is that of the fields.
-/

namespace Sys2Proof.Proofs

open Sys2Proof.Machine Sys2Proof.Claims

variable {s : State} {p : Ppu} {a : Word} {d : Byte} {t v : Loopy}

/-! ### Fields of a bit vector -/

theorem toNat_append_add {m n : Nat} (x : BitVec m) (y : BitVec n) : (x ++ y).toNat = x.toNat * 2 ^ n + y.toNat := by
  rw [BitVec.toNat_append, ← Nat.shiftLeft_add_eq_or_of_lt y.isLt, Nat.shiftLeft_eq]

theorem toNat_field {n : Nat} (lo len : Nat) (x : BitVec n) : (x.extractLsb' lo len).toNat = x.toNat / 2 ^ lo % 2 ^ len := by
  rw [BitVec.extractLsb'_toNat, Nat.shiftRight_eq_div_pow]

/-! ### PPUCTRL, PPUMASK, OAMADDR and OAMDATA -/

theorem writeCtrl_t (d : Byte) (p : Ppu) :
    (writeCtrl d p).t = p.t.extractLsb' 12 3 ++ d.extractLsb' 0 2 ++ p.t.extractLsb' 0 10 := by
  apply BitVec.eq_of_getLsbD_eq
  intro k hk
  rw [writeCtrl, BitVec.getLsbD_append, BitVec.getLsbD_append]
  interval_cases k <;> simp

theorem writeCtrl_t_toNat (d : Byte) (p : Ppu) :
    (writeCtrl d p).t.toNat = p.t.toNat / 4096 * 4096 + d.toNat % 4 * 1024 + p.t.toNat % 1024 := by
  rw [writeCtrl_t, toNat_append_add, toNat_append_add, toNat_field, toNat_field, toNat_field]
  have := p.t.isLt
  omega

/-- Settles O49: each register's write is an update of its own fields of the PPU, at every mirror. -/
theorem controlAndOamRegisters : Obligations.ControlAndOamRegisters := by
  refine ⟨fun s a d ha => ⟨_, memWrite_ppuRegisterAt ha d s, writeCtrl_t_toNat d s.ppu⟩,
    fun s a d ha => ⟨memWrite_ppuRegisterAt ha d s, memRead_ppuRegisterAt ha s⟩,
    fun s a d ha => memWrite_ppuRegisterAt ha d s, fun s a d ha => memWrite_ppuRegisterAt ha d s,
    fun s a d ha => ⟨?_, memRead_ppuRegisterAt ha s⟩⟩
  have haddr : BitVec.ofNat 8 (s.ppu.oamAddr.toNat + 1) = s.ppu.oamAddr + 1 := (BitVec.add_def s.ppu.oamAddr 1).symm
  rw [haddr]
  exact memWrite_ppuRegisterAt ha d s

/-! ### PPUSTATUS -/

/-- The three stored bits in their places (R33). -/
theorem getLsbD_statusBits (st : PpuStatus) {k : Nat} (hk : k < 8) :
    (statusBits st).getLsbD k =
      if k = 7 then st.vblank else if k = 6 then st.sprite0Hit else if k = 5 then st.spriteOverflow else false := by
  obtain ⟨vblank, sprite0Hit, spriteOverflow⟩ := st
  revert k
  cases vblank <;> cases sprite0Hit <;> cases spriteOverflow <;> decide

theorem getLsbD_lowFive (b : Byte) {k : Nat} (hk : k < 8) : (b &&& 0x1F).getLsbD k = (decide (k < 5) && b.getLsbD k) := by
  have hmask : ∀ k < 8, (0x1F : Byte).getLsbD k = decide (k < 5) := by decide
  rw [BitVec.getLsbD_and, hmask k hk, Bool.and_comm]

/-- Settles O48: the flags lie over the OPEN_BUS bits, each bit from one of the two. -/
theorem statusRead : Obligations.StatusRead := by
  intro s a ha
  have hbit : ∀ k < 8, (statusBits s.ppu.status ||| (openBusByte s &&& 0x1F)).getLsbD k =
      ((statusBits s.ppu.status).getLsbD k || (decide (k < 5) && (openBusByte s).getLsbD k)) := fun k hk => by
    rw [BitVec.getLsbD_or, getLsbD_lowFive _ hk]
  refine ⟨_, memRead_ppuRegisterAt ha s, ?_, ?_, ?_, fun k hk => ?_⟩
  · rw [hbit 7 (by decide), getLsbD_statusBits _ (by decide)]
    exact Bool.or_false _
  · rw [hbit 6 (by decide), getLsbD_statusBits _ (by decide)]
    exact Bool.or_false _
  · rw [hbit 5 (by decide), getLsbD_statusBits _ (by decide)]
    exact Bool.or_false _
  · rw [hbit k (by omega), getLsbD_statusBits _ (by omega), if_neg (by omega), if_neg (by omega), if_neg (by omega),
      decide_eq_true hk, Bool.false_or, Bool.true_and]
    rfl

/-! ### PPUSCROLL and PPUADDR -/

/-- The first write to `$2005`: coarse X and fine X (R338). -/
theorem writeScroll_first (hw : p.w = false) :
    writeScroll d p =
      { p with t := p.t.extractLsb' 5 10 ++ d.extractLsb' 3 5, fineX := BitVec.ofNat 3 (d.toNat % 8), w := true } := by
  have ht : (p.t &&& ~~~(0x001F : Loopy)) ||| (d >>> 3).setWidth 15 = p.t.extractLsb' 5 10 ++ d.extractLsb' 3 5 := by
    apply BitVec.eq_of_getLsbD_eq
    intro k hk
    rw [BitVec.getLsbD_append]
    interval_cases k <;> simp
  have hfine : d.setWidth 3 = BitVec.ofNat 3 (d.toNat % 8) := by
    rw [← BitVec.toNat_inj, BitVec.toNat_setWidth, BitVec.toNat_ofNat]
    omega
  rw [writeScroll, hw, ht, hfine]
  rfl

/-- The second write to `$2005`: fine Y and coarse Y (R339). -/
theorem writeScroll_second (hw : p.w = true) :
    writeScroll d p =
      { p with t := d.extractLsb' 0 3 ++ p.t.extractLsb' 10 2 ++ d.extractLsb' 3 5 ++ p.t.extractLsb' 0 5, w := false } := by
  have ht : (p.t &&& ~~~(0x73E0 : Loopy)) ||| ((d &&& 7).setWidth 15 <<< 12) ||| ((d >>> 3).setWidth 15 <<< 5) =
      d.extractLsb' 0 3 ++ p.t.extractLsb' 10 2 ++ d.extractLsb' 3 5 ++ p.t.extractLsb' 0 5 := by
    apply BitVec.eq_of_getLsbD_eq
    intro k hk
    rw [BitVec.getLsbD_append, BitVec.getLsbD_append, BitVec.getLsbD_append]
    interval_cases k <;> simp
  rw [writeScroll, hw, ht]
  rfl

/-- The first write to `$2006`: bits 13 to 8, and bit 14 cleared (R340). -/
theorem writeAddr_first (hw : p.w = false) :
    writeAddr d p = { p with t := 0#1 ++ d.extractLsb' 0 6 ++ p.t.extractLsb' 0 8, w := true } := by
  have ht : (p.t &&& (0x00FF : Loopy)) ||| ((d &&& 0x3F).setWidth 15 <<< 8) = 0#1 ++ d.extractLsb' 0 6 ++ p.t.extractLsb' 0 8 := by
    apply BitVec.eq_of_getLsbD_eq
    intro k hk
    rw [BitVec.getLsbD_append, BitVec.getLsbD_append]
    interval_cases k <;> simp
  rw [writeAddr, hw]
  exact congrArg (fun t => { p with t := t, w := true }) ht

/-- The second write to `$2006`: bits 7 to 0, and then v (R341). -/
theorem writeAddr_second (hw : p.w = true) :
    writeAddr d p = { p with t := p.t.extractLsb' 8 7 ++ d, v := p.t.extractLsb' 8 7 ++ d, w := false } := by
  have ht : (p.t &&& (0x7F00 : Loopy)) ||| d.setWidth 15 = p.t.extractLsb' 8 7 ++ d := by
    apply BitVec.eq_of_getLsbD_eq
    intro k hk
    rw [BitVec.getLsbD_append]
    interval_cases k <;> simp
  simp only [writeAddr, hw, ht, if_true]

theorem afterWrite_scroll (d : Byte) (s : State) : afterWrite 0x2005 d s = s.mapPpu (writeScroll d) := rfl

theorem afterWrite_addr (d : Byte) (s : State) : afterWrite 0x2006 d s = s.mapPpu (writeAddr d) := rfl

theorem memWrite_scroll (ha : PpuRegisterAt 5 a) : memWrite a d s = .done () { s with ppu := writeScroll d s.ppu } :=
  memWrite_ppuRegisterAt ha d s

theorem memWrite_addr (ha : PpuRegisterAt 6 a) : memWrite a d s = .done () { s with ppu := writeAddr d s.ppu } :=
  memWrite_ppuRegisterAt ha d s

/-- From w = 0, after all four writes t and v are the address, whose bits 13 to 8 and 7 to 0 the last two gave. -/
theorem afterWrites_scrollAddr (d1 d2 d3 d4 : Byte) (hw : s.ppu.w = false) :
    let p := (afterWrite 0x2006 d4 (afterWrite 0x2006 d3 (afterWrite 0x2005 d2 (afterWrite 0x2005 d1 s)))).ppu
    p.v = p.t ∧ p.w = false ∧ p.v.toNat = d3.toNat % 64 * 256 + d4.toNat := by
  simp only [afterWrite_scroll, afterWrite_addr, State.mapPpu, writeScroll_first, writeScroll_second, writeAddr_first,
    writeAddr_second, hw, true_and]
  rw [toNat_append_add, toNat_field, toNat_append_add, toNat_append_add, toNat_field, toNat_field]
  have := d4.isLt
  simp only [BitVec.toNat_ofNat]
  omega

/-- Settles O50: the four writes by their fields. -/
theorem scrollAndAddressWrites : Obligations.ScrollAndAddressWrites := by
  refine ⟨fun s a d ha => ⟨fun hw => ⟨_, by rw [memWrite_scroll ha, writeScroll_first hw], ?_⟩,
      fun hw => ⟨_, by rw [memWrite_scroll ha, writeScroll_second hw], ?_⟩⟩,
    fun s a d ha => ⟨fun hw => ⟨_, by rw [memWrite_addr ha, writeAddr_first hw], ?_⟩,
      fun hw => ⟨_, by rw [memWrite_addr ha, writeAddr_second hw], ?_⟩⟩,
    fun s d1 d2 d3 d4 hw => afterWrites_scrollAddr d1 d2 d3 d4 hw⟩
  · rw [toNat_append_add, toNat_field, toNat_field]
    have := s.ppu.t.isLt
    omega
  · rw [toNat_append_add, toNat_append_add, toNat_append_add, toNat_field, toNat_field, toNat_field, toNat_field]
    omega
  · rw [toNat_append_add, toNat_append_add, toNat_field, toNat_field]
    simp
  · rw [toNat_append_add, toNat_field]
    have := s.ppu.t.isLt
    omega

/-! ### PPUDATA -/

theorem vIncrement_eq (p : Ppu) :
    vIncrement p = { p with v := BitVec.ofNat 15 (p.v.toNat + (if p.ctrl.getLsbD 2 then 32 else 1)) } := by
  rw [vIncrement]
  split <;> rfl

theorem setWidth_eq_ofNat (v : Loopy) : v.setWidth 14 = BitVec.ofNat 14 v.toNat := by
  rw [← BitVec.toNat_inj, BitVec.toNat_setWidth, BitVec.toNat_ofNat]

/-- The refill of a palette read comes from the nametable below it (R342). -/
theorem setWidth_sub_eq_ofNat (hv : 0x3F00 ≤ v.toNat) : (v - 0x1000).setWidth 14 = BitVec.ofNat 14 (v.toNat - 0x1000) := by
  have hsub : (v - 0x1000).toNat = v.toNat - 4096 := BitVec.toNat_sub_of_le (BitVec.le_def.2 (show 4096 ≤ v.toNat by omega))
  rw [setWidth_eq_ofNat, hsub]

theorem readData_buffered (hv : s.ppu.v.toNat < 0x3F00) :
    readData s =
      .done s.ppu.readBuffer (s.mapPpu fun p => vIncrement { p with readBuffer := ppuFetch s.cfg s.ppu (s.ppu.v.setWidth 14) }) := by
  simp only [readData, if_neg (show ¬0x4000 ≤ s.ppu.v.toNat by omega), if_pos hv]

theorem readData_palette (hlo : 0x3F00 ≤ s.ppu.v.toNat) (hhi : s.ppu.v.toNat < 0x4000) :
    readData s =
      .done (ppuFetch s.cfg s.ppu (s.ppu.v.setWidth 14))
        (s.mapPpu fun p => vIncrement { p with readBuffer := ppuFetch s.cfg s.ppu ((s.ppu.v - 0x1000).setWidth 14) }) := by
  simp only [readData, if_neg (show ¬0x4000 ≤ s.ppu.v.toNat by omega), if_neg (show ¬s.ppu.v.toNat < 0x3F00 by omega)]

theorem readData_stopped (hv : 0x4000 ≤ s.ppu.v.toNat) : readData s = .stopped (.ppuAddressOutOfRange s.ppu.v) s := by
  simp only [readData, if_pos hv]

theorem writeData_done (hlo : 0x2000 ≤ s.ppu.v.toNat) (hhi : s.ppu.v.toNat < 0x4000) :
    writeData d s = .done () (s.mapPpu fun p => vIncrement (ppuStore s.cfg (s.ppu.v.setWidth 14) d p)) := by
  simp only [writeData, if_neg (show ¬s.ppu.v.toNat < 0x2000 by omega), if_neg (show ¬0x4000 ≤ s.ppu.v.toNat by omega)]

theorem writeData_chrRom (hv : s.ppu.v.toNat < 0x2000) : writeData d s = .stopped (.chrRomWrite s.ppu.v) s := by
  simp only [writeData, if_pos hv]

theorem writeData_stopped (hv : 0x4000 ≤ s.ppu.v.toNat) : writeData d s = .stopped (.ppuAddressOutOfRange s.ppu.v) s := by
  simp only [writeData, if_neg (show ¬s.ppu.v.toNat < 0x2000 by omega), if_pos hv]

/-- A store leaves v and ctrl, which give the increment. -/
theorem ppuStore_registers (cfg : Config) (a : BitVec 14) (d : Byte) (p : Ppu) :
    (ppuStore cfg a d p).v = p.v ∧ (ppuStore cfg a d p).ctrl = p.ctrl := by
  rw [ppuStore]
  split <;> exact ⟨rfl, rfl⟩

/-- Settles O51: the ranges of v, each with its access and the increment, or its fault. -/
theorem dataPort : Obligations.DataPort := by
  intro s a d ha next here
  rw [memRead_ppuRegisterAt ha, memWrite_ppuRegisterAt ha, show here = s.ppu.v.setWidth 14 from (setWidth_eq_ofNat _).symm]
  refine ⟨fun hv => ?_, fun hlo hhi => ?_, readData_stopped, writeData_chrRom, fun hlo hhi => ⟨_, rfl, ?_⟩, writeData_stopped⟩
  · refine (readData_buffered hv).trans ?_
    rw [State.mapPpu, vIncrement_eq]
  · refine (readData_palette hlo hhi).trans ?_
    rw [State.mapPpu, vIncrement_eq, setWidth_sub_eq_ofNat hlo]
  · refine (writeData_done hlo hhi).trans ?_
    obtain ⟨hv, hctrl⟩ := ppuStore_registers s.cfg (s.ppu.v.setWidth 14) d s.ppu
    rw [State.mapPpu, vIncrement_eq, hv, hctrl]

/-! ### The scroll increments -/

theorem copyHorizontal_eq (t v : Loopy) :
    copyHorizontal t v = v.extractLsb' 11 4 ++ t.extractLsb' 10 1 ++ v.extractLsb' 5 5 ++ t.extractLsb' 0 5 := by
  apply BitVec.eq_of_getLsbD_eq
  intro k hk
  rw [copyHorizontal, BitVec.getLsbD_append, BitVec.getLsbD_append, BitVec.getLsbD_append]
  interval_cases k <;> simp

theorem copyVertical_eq (t v : Loopy) :
    copyVertical t v = t.extractLsb' 11 4 ++ v.extractLsb' 10 1 ++ t.extractLsb' 5 5 ++ v.extractLsb' 0 5 := by
  apply BitVec.eq_of_getLsbD_eq
  intro k hk
  rw [copyVertical, BitVec.getLsbD_append, BitVec.getLsbD_append, BitVec.getLsbD_append]
  interval_cases k <;> simp

theorem toNat_bit_not (b : BitVec 1) : (~~~b).toNat = 1 - b.toNat := BitVec.toNat_not

/-- Coarse X is the low five bits of v (R44). -/
theorem and_coarseX_eq_iff (v : Loopy) : v &&& 0x001F = 0x001F ↔ v.toNat % 32 = 31 := by
  rw [← BitVec.toNat_inj, BitVec.toNat_and]
  exact iff_of_eq (congrArg (· = 31) (Nat.and_two_pow_sub_one_eq_mod v.toNat 5))

theorem wrapCoarseX_eq (v : Loopy) :
    (v &&& ~~~0x001F) ^^^ 0x0400 = v.extractLsb' 11 4 ++ ~~~(v.extractLsb' 10 1) ++ v.extractLsb' 5 5 ++ 0#5 := by
  apply BitVec.eq_of_getLsbD_eq
  intro k hk
  rw [BitVec.getLsbD_append, BitVec.getLsbD_append, BitVec.getLsbD_append]
  interval_cases k <;> simp

theorem coarseXIncrement_toNat (v : Loopy) :
    (coarseXIncrement v).toNat =
      if v.toNat % 32 = 31 then
        (if v.toNat / 1024 % 2 = 0 then v.toNat - 31 + 1024 else v.toNat - 31 - 1024) else v.toNat + 1 := by
  have hv := v.isLt
  simp only [coarseXIncrement, and_coarseX_eq_iff]
  split
  · rw [wrapCoarseX_eq, toNat_append_add, toNat_append_add, toNat_append_add, toNat_bit_not, toNat_field, toNat_field, toNat_field,
      BitVec.toNat_ofNat]
    split <;> omega
  · simp only [BitVec.toNat_add, BitVec.reduceToNat]
    omega

theorem and_fineY_eq (v : Loopy) : v &&& 0x7000 = v.extractLsb' 12 3 ++ 0#12 := by
  apply BitVec.eq_of_getLsbD_eq
  intro k hk
  rw [BitVec.getLsbD_append]
  interval_cases k <;> simp

theorem clearFineY_eq (v : Loopy) : v &&& ~~~0x7000 = 0#3 ++ v.extractLsb' 0 12 := by
  apply BitVec.eq_of_getLsbD_eq
  intro k hk
  rw [BitVec.getLsbD_append]
  interval_cases k <;> simp

theorem and_coarseY_eq (v : Loopy) : v &&& 0x03E0 = 0#5 ++ v.extractLsb' 5 5 ++ 0#5 := by
  apply BitVec.eq_of_getLsbD_eq
  intro k hk
  rw [BitVec.getLsbD_append, BitVec.getLsbD_append]
  interval_cases k <;> simp

theorem clearCoarseY_eq (v : Loopy) : v &&& ~~~0x03E0 = v.extractLsb' 10 5 ++ 0#5 ++ v.extractLsb' 0 5 := by
  apply BitVec.eq_of_getLsbD_eq
  intro k hk
  rw [BitVec.getLsbD_append, BitVec.getLsbD_append]
  interval_cases k <;> simp

theorem toggleNametableY_eq (v : Loopy) :
    v ^^^ 0x0800 = v.extractLsb' 12 3 ++ ~~~(v.extractLsb' 11 1) ++ v.extractLsb' 0 11 := by
  apply BitVec.eq_of_getLsbD_eq
  intro k hk
  rw [BitVec.getLsbD_append, BitVec.getLsbD_append]
  interval_cases k <;> simp

theorem and_fineY_eq_iff (v : Loopy) : v &&& 0x7000 = 0x7000 ↔ v.toNat / 4096 = 7 := by
  have hv := v.isLt
  rw [and_fineY_eq, ← BitVec.toNat_inj, toNat_append_add, toNat_field]
  simp only [BitVec.reduceToNat]
  omega

theorem clearFineY_toNat (v : Loopy) : (v &&& ~~~0x7000).toNat = v.toNat % 4096 := by
  rw [clearFineY_eq, toNat_append_add, toNat_field, BitVec.toNat_ofNat]
  omega

theorem and_coarseY_toNat (v : Loopy) : (v &&& 0x03E0).toNat = v.toNat / 32 % 32 * 32 := by
  rw [and_coarseY_eq, toNat_append_add, toNat_append_add, toNat_field, BitVec.toNat_ofNat]
  omega

theorem and_coarseY_eq_iff (v : Loopy) {cy : Nat} (hcy : cy < 32) : v &&& 0x03E0 = BitVec.ofNat 15 (32 * cy) ↔ v.toNat / 32 % 32 = cy := by
  rw [← BitVec.toNat_inj, and_coarseY_toNat, BitVec.toNat_ofNat]
  omega

theorem clearCoarseY_toNat (v : Loopy) : (v &&& ~~~0x03E0).toNat = v.toNat - v.toNat / 32 % 32 * 32 := by
  have hv := v.isLt
  rw [clearCoarseY_eq, toNat_append_add, toNat_append_add, toNat_field, toNat_field, BitVec.toNat_ofNat]
  omega

theorem toggleNametableY_toNat (v : Loopy) :
    (v ^^^ 0x0800).toNat = if v.toNat / 2048 % 2 = 0 then v.toNat + 2048 else v.toNat - 2048 := by
  have hv := v.isLt
  rw [toggleNametableY_eq, toNat_append_add, toNat_append_add, toNat_bit_not, toNat_field, toNat_field, toNat_field]
  split <;> omega

theorem yIncrement_toNat (v : Loopy) :
    (yIncrement v).toNat =
      let rest := v.toNat % 4096
      if v.toNat / 4096 < 7 then v.toNat + 4096
      else if rest / 32 % 32 = 29 then (if rest / 2048 = 0 then rest - 29 * 32 + 2048 else rest - 29 * 32 - 2048)
      else if rest / 32 % 32 = 31 then rest - 31 * 32
      else rest + 32 := by
  have h29 : v &&& ~~~0x7000 &&& 0x03E0 = 0x03A0 ↔ v.toNat % 4096 / 32 % 32 = 29 := by
    rw [← clearFineY_toNat]
    exact and_coarseY_eq_iff _ (show 29 < 32 by decide)
  have h31 : v &&& ~~~0x7000 &&& 0x03E0 = 0x03E0 ↔ v.toNat % 4096 / 32 % 32 = 31 := by
    rw [← clearFineY_toNat]
    exact and_coarseY_eq_iff _ (show 31 < 32 by decide)
  have hv := v.isLt
  simp only [yIncrement, ne_eq, and_fineY_eq_iff, h29, h31]
  by_cases hfine : v.toNat / 4096 = 7
  · rw [if_neg (not_not.2 hfine), if_neg (show ¬v.toNat / 4096 < 7 by omega)]
    split
    · rw [toggleNametableY_toNat, clearCoarseY_toNat, clearFineY_toNat]
      split_ifs <;> omega
    · split
      · rw [clearCoarseY_toNat, clearFineY_toNat]
        omega
      · rw [BitVec.toNat_add, clearFineY_toNat]
        simp only [BitVec.reduceToNat]
        omega
  · rw [if_pos hfine, if_pos (show v.toNat / 4096 < 7 by omega), BitVec.toNat_add]
    simp only [BitVec.reduceToNat]
    omega

theorem copyHorizontal_toNat (t v : Loopy) :
    (copyHorizontal t v).toNat =
      v.toNat / 2048 * 2048 + t.toNat / 1024 % 2 * 1024 + v.toNat / 32 % 32 * 32 + t.toNat % 32 := by
  have hv := v.isLt
  rw [copyHorizontal_eq, toNat_append_add, toNat_append_add, toNat_append_add, toNat_field, toNat_field, toNat_field, toNat_field]
  omega

theorem copyVertical_toNat (t v : Loopy) :
    (copyVertical t v).toNat =
      t.toNat / 2048 * 2048 + v.toNat / 1024 % 2 * 1024 + t.toNat / 32 % 32 * 32 + v.toNat % 32 := by
  have ht := t.isLt
  rw [copyVertical_eq, toNat_append_add, toNat_append_add, toNat_append_add, toNat_field, toNat_field, toNat_field, toNat_field]
  omega

/-- Settles O53: the four changes of v, by its fields. -/
theorem scrollIncrements : Obligations.ScrollIncrements := fun t v =>
  ⟨coarseXIncrement_toNat v, yIncrement_toNat v, copyHorizontal_toNat t v, copyVertical_toNat t v⟩

end Sys2Proof.Proofs
end

section
/-!
SUPPORT. The dot and the raster (R360 to R366, R387, R388). A dot is the pixel and the status events, then step 4 on what they
leave: each part has its equation here, and each field of the dot's result is read off the part that writes it.
-/

namespace Sys2Proof.Proofs

open Sys2Proof.Machine Sys2Proof.Claims

variable {cfg : Config} {p q : Ppu} {s d : Nat}

/-! ### The parts of a dot, in the terms of the statements -/

theorem renderEnabled_iff (cfg : Config) (p : Ppu) : renderEnabled cfg p = true ↔ RenderingOn cfg p := by
  rw [renderEnabled]
  cases h : cfg.maskGating <;> simp [RenderingOn, h]

theorem isFetchDot_iff (d : Nat) : isFetchDot d = true ↔ FetchesAt d := by
  simp only [isFetchDot, Bool.or_eq_true, decide_eq_true_eq, or_assoc]

theorem pixelWork_eq (cfg : Config) (p : Ppu) (s d : Nat) :
    pixelWork cfg s d p = if s ≤ 239 ∧ 1 ≤ d ∧ d ≤ 256 then outputPixel cfg p s (d - 1) else p := by
  simp only [pixelWork, isVisible, Bool.and_eq_true, decide_eq_true_eq, and_assoc]

theorem statusWork_eq (p : Ppu) (s d : Nat) :
    statusWork s d p =
      if s = 241 ∧ d = 1 then { p with status := { p.status with vblank := true } }
      else if s = 261 ∧ d = 1 then { p with status := ⟨false, false, false⟩ } else p := by
  simp only [statusWork, Bool.and_eq_true, beq_iff_eq]

theorem dotWork_eq_works (cfg : Config) (p : Ppu) (s d : Nat) :
    dotWork cfg p s d =
      if (s ≤ 239 ∨ s = 261) ∧ RenderingOn cfg p then renderWork cfg (statusWork s d (pixelWork cfg s d p)) s d
      else statusWork s d (pixelWork cfg s d p) := by
  simp only [dotWork_eq, Bool.and_eq_true, Bool.or_eq_true, isVisible, decide_eq_true_eq, beq_iff_eq, renderEnabled_iff]

theorem pixelWork_status (cfg : Config) (p : Ppu) (s d : Nat) :
    (pixelWork cfg s d p).status = { p.status with sprite0Hit := (pixelWork cfg s d p).status.sprite0Hit } := by
  rw [pixelWork_eq]
  split
  · obtain ⟨c, hit, h⟩ := outputPixel_frame cfg p s (d - 1)
    rw [h]
  · rfl

/-- Steps 1 to 3 of a dot write the status and the frame buffer alone. -/
theorem beforeRender_eq (cfg : Config) (p : Ppu) (s d : Nat) :
    statusWork s d (pixelWork cfg s d p) =
      { p with status := (statusWork s d (pixelWork cfg s d p)).status
               frameBuffer := (pixelWork cfg s d p).frameBuffer } := by
  have h : pixelWork cfg s d p =
      { p with status := (pixelWork cfg s d p).status, frameBuffer := (pixelWork cfg s d p).frameBuffer } := by
    rw [pixelWork_eq]
    split
    · obtain ⟨c, hit, h⟩ := outputPixel_frame cfg p s (d - 1)
      rw [h]
    · rfl
  rw [statusWork_frame, h]

/-- Step 4 keeps the frame buffer, VBlank and the sprite-0 flag of the steps before it. -/
theorem dotWork_stage (cfg : Config) (p : Ppu) (s d : Nat) :
    StageFrame (statusWork s d (pixelWork cfg s d p)) (dotWork cfg p s d) := by
  rw [dotWork_eq_works]
  split
  · exact renderWork_frame cfg _ s d
  · exact StageFrame.refl _

/-! ### What a dot leaves in each field -/

/-- The fields that `DotFrame` lists by what it leaves out. -/
theorem keeps_of_dotFrame (h : DotFrame p q) :
    q.ctrl = p.ctrl ∧ q.mask = p.mask ∧ q.oamAddr = p.oamAddr ∧ q.readBuffer = p.readBuffer ∧ q.t = p.t ∧
      q.fineX = p.fineX ∧ q.w = p.w ∧ q.vram = p.vram ∧ q.palette = p.palette ∧ q.oam = p.oam ∧
      q.scanline = p.scanline ∧ q.dot = p.dot ∧ q.frameCount = p.frameCount := by
  rw [h.eq]
  exact ⟨rfl, rfl, rfl, rfl, rfl, rfl, rfl, rfl, rfl, rfl, rfl, rfl, rfl⟩

theorem dotWork_output (cfg : Config) (p : Ppu) (s d : Nat) :
    if s ≤ 239 ∧ 1 ≤ d ∧ d ≤ 256 then
      (dotWork cfg p s d).frameBuffer = (outputPixel cfg p s (d - 1)).frameBuffer ∧
        (dotWork cfg p s d).status.sprite0Hit = (outputPixel cfg p s (d - 1)).status.sprite0Hit
    else (dotWork cfg p s d).frameBuffer = p.frameBuffer ∧
      (dotWork cfg p s d).status.sprite0Hit = if s = 261 ∧ d = 1 then false else p.status.sprite0Hit := by
  rw [(dotWork_stage cfg p s d).frameBuffer, (dotWork_stage cfg p s d).status, statusWork_eq, pixelWork_eq]
  by_cases hpixel : s ≤ 239 ∧ 1 ≤ d ∧ d ≤ 256
  · rw [if_pos hpixel, if_pos hpixel, if_neg (by omega), if_neg (by omega)]
    exact ⟨rfl, rfl⟩
  · rw [if_neg hpixel, if_neg hpixel]
    by_cases hclear : s = 261 ∧ d = 1
    · rw [if_neg (show ¬(s = 241 ∧ d = 1) by omega), if_pos hclear, if_pos hclear]
      exact ⟨rfl, rfl⟩
    · rw [if_neg hclear, if_neg hclear]
      split <;> exact ⟨rfl, rfl⟩

theorem dotWork_vblank (cfg : Config) (p : Ppu) (s d : Nat) :
    (dotWork cfg p s d).status.vblank =
      if s = 241 ∧ d = 1 then true else if s = 261 ∧ d = 1 then false else p.status.vblank := by
  rw [(dotWork_stage cfg p s d).status, statusWork_eq]
  split_ifs
  · rfl
  · rfl
  · rw [pixelWork_status]

theorem beforeRender_spriteOverflow (cfg : Config) (p : Ppu) (s d : Nat) :
    (statusWork s d (pixelWork cfg s d p)).status.spriteOverflow =
      if s = 261 ∧ d = 1 then false else p.status.spriteOverflow := by
  have h : (pixelWork cfg s d p).status.spriteOverflow = p.status.spriteOverflow := by rw [pixelWork_status]
  rw [statusWork_eq]
  split_ifs
  · omega
  · exact h
  · rfl
  · exact h

/-! ### Step 4, after the steps before it -/

/-- The tile fetch does not see what steps 1 to 3 write. -/
theorem fetchTile_congr (hv : q.v = p.v) (hctrl : q.ctrl = p.ctrl) (hvram : q.vram = p.vram) (hpal : q.palette = p.palette)
    (hlast : q.bgB = p.bgB) :
    (fetchTile cfg q).bgA = (fetchTile cfg p).bgA ∧ (fetchTile cfg q).bgB = (fetchTile cfg p).bgB := by
  have hfetch : ppuFetch cfg q = ppuFetch cfg p := by
    funext a
    rw [ppuFetch, ppuFetch, hvram, hpal]
  simp only [fetchTile, hfetch, hv, hctrl, hlast, and_self]

theorem dotWork_tiles (cfg : Config) (p : Ppu) (s d : Nat) :
    if ((s ≤ 239 ∨ s = 261) ∧ RenderingOn cfg p) ∧ FetchesAt d then
      (dotWork cfg p s d).bgA = (fetchTile cfg p).bgA ∧ (dotWork cfg p s d).bgB = (fetchTile cfg p).bgB
    else (dotWork cfg p s d).bgA = p.bgA ∧ (dotWork cfg p s d).bgB = p.bgB := by
  have hbefore := beforeRender_eq cfg p s d
  rw [dotWork_eq_works]
  generalize statusWork s d (pixelWork cfg s d p) = r at hbefore ⊢
  split
  next hworks =>
    obtain ⟨hw, hfetch⟩ := hworks
    obtain ⟨hA, hB⟩ := renderWork_tiles cfg r s d
    rw [if_pos hw, hA, hB, if_pos ((isFetchDot_iff d).2 hfetch), hbefore]
    exact fetchTile_congr rfl rfl rfl rfl rfl
  next hworks =>
    split
    next hw =>
      obtain ⟨hA, hB⟩ := renderWork_tiles cfg r s d
      rw [hA, hB, if_neg fun hfetch => hworks ⟨hw, (isFetchDot_iff d).1 hfetch⟩, hbefore]
      exact ⟨rfl, rfl⟩
    next =>
      rw [hbefore]
      exact ⟨rfl, rfl⟩

theorem read_clearSecondaryOam (p : Ppu) {n : Nat} (hn : n < 32) : (clearSecondaryOam p).secOam.read n = 0xFF := by
  rw [clearSecondaryOam]
  interval_cases n <;> rfl

theorem dotWork_secondary (cfg : Config) (p : Ppu) (s d : Nat) :
    let q := dotWork cfg p s d
    let works := (s ≤ 239 ∨ s = 261) ∧ RenderingOn cfg p
    let r := if works ∧ s ≤ 239 ∧ d = 64 then clearSecondaryOam p
      else if works ∧ s ≤ 239 ∧ d = 256 then evaluateSprites p s else p
    q.secOam = r.secOam ∧ q.secCount = r.secCount ∧ q.secIndex = r.secIndex ∧
      q.status.spriteOverflow = if s = 261 ∧ d = 1 then false else r.status.spriteOverflow := by
  have hbefore := beforeRender_eq cfg p s d
  have hover := beforeRender_spriteOverflow cfg p s d
  simp only [dotWork_eq_works]
  generalize statusWork s d (pixelWork cfg s d p) = r at hbefore hover ⊢
  have hsec : r.secOam = p.secOam ∧ r.secCount = p.secCount ∧ r.secIndex = p.secIndex ∧ r.oam = p.oam ∧ r.ctrl = p.ctrl := by
    rw [hbefore]
    exact ⟨rfl, rfl, rfl, rfl, rfl⟩
  obtain ⟨hcells, hcount, hindex, hoam, hctrl⟩ := hsec
  by_cases hw : (s ≤ 239 ∨ s = 261) ∧ RenderingOn cfg p
  · obtain ⟨h1, h2, h3, h4⟩ := renderWork_secondary cfg r s d
    rw [if_pos hw, h1, h2, h3, h4]
    simp only [hw, true_and]
    split
    · exact ⟨rfl, rfl, hindex, hover⟩
    · split
      next h256 =>
        rw [if_neg (by omega)] at hover ⊢
        exact evaluateSprites_congr s hoam hctrl hcells hindex hover
      next => exact ⟨hcells, hcount, hindex, hover⟩
  · simp only [hw, false_and, if_false]
    exact ⟨hcells, hcount, hindex, hover⟩

theorem dotWork_slots (cfg : Config) (p : Ppu) (s d : Nat) :
    let q := dotWork cfg p s d
    let r := if ((s ≤ 239 ∨ s = 261) ∧ RenderingOn cfg p) ∧ d = 320 then
        if s ≤ 239 then loadSpriteSlots cfg p s else { p with slotCount := 0 }
      else p
    q.slots = r.slots ∧ q.slotCount = r.slotCount := by
  have hbefore := beforeRender_eq cfg p s d
  have h320 : d = 320 → statusWork s d (pixelWork cfg s d p) = p := fun hd => by
    rw [statusWork_eq, pixelWork_eq, if_neg (by omega), if_neg (by omega), if_neg (by omega)]
  simp only [dotWork_eq_works]
  generalize statusWork s d (pixelWork cfg s d p) = r at hbefore h320 ⊢
  have hslots : r.slots = p.slots ∧ r.slotCount = p.slotCount := by
    rw [hbefore]
    exact ⟨rfl, rfl⟩
  by_cases hw : (s ≤ 239 ∨ s = 261) ∧ RenderingOn cfg p
  · obtain ⟨h1, h2⟩ := renderWork_slots cfg r s d
    rw [if_pos hw, h1, h2]
    by_cases hd : d = 320
    · rw [if_pos hd, if_pos (And.intro hw hd), h320 hd]
      exact ⟨rfl, rfl⟩
    · rw [if_neg hd, if_neg fun h => hd h.2]
      exact hslots
  · rw [if_neg hw, if_neg fun h => hw h.1]
    exact hslots

/-! ### v within step 4 -/

theorem clearWork_v (s d : Nat) (p : Ppu) : (clearWork s d p).v = p.v := by
  rw [clearWork]
  split <;> rfl

theorem tileWork_v (cfg : Config) (d : Nat) (p : Ppu) :
    (tileWork cfg d p).v = if FetchesAt d then coarseXIncrement p.v else p.v := by
  rw [tileWork, ite_congr (propext (isFetchDot_iff d)) (fun _ => rfl) fun _ => rfl]
  split <;> rfl

theorem lineWork_v (s d : Nat) (p : Ppu) : (lineWork s d p).v = if d = 256 then yIncrement p.v else p.v := by
  simp only [lineWork, beq_iff_eq]
  split
  · split
    · rw [evaluateSprites_frame]
    · rfl
  · rfl

theorem horizontalWork_v (d : Nat) (p : Ppu) :
    (horizontalWork d p).v = if d = 257 then copyHorizontal p.t p.v else p.v := by
  simp only [horizontalWork, beq_iff_eq]
  split <;> rfl

theorem verticalWork_v (s d : Nat) (p : Ppu) :
    (verticalWork s d p).v = if s = 261 ∧ 280 ≤ d ∧ d ≤ 304 then copyVertical p.t p.v else p.v := by
  simp only [verticalWork, Bool.and_eq_true, beq_iff_eq, decide_eq_true_eq, and_assoc]
  split <;> rfl

theorem spriteWork_v (cfg : Config) (s d : Nat) (p : Ppu) : (spriteWork cfg s d p).v = p.v := by
  rw [spriteWork]
  split
  · split
    · rw [loadSpriteSlots_frame]
    · rfl
  · rfl

theorem t_of_stageFrame (h : StageFrame p q) : q.t = p.t := by rw [h.frame.eq]

/-- The changes of v in step 4, in the order of R361. -/
def rasterV (s d : Nat) (t v : Loopy) : Loopy :=
  let v1 := if FetchesAt d then coarseXIncrement v else v
  let v2 := if d = 256 then yIncrement v1 else v1
  let v3 := if d = 257 then copyHorizontal t v2 else v2
  if s = 261 ∧ 280 ≤ d ∧ d ≤ 304 then copyVertical t v3 else v3

theorem renderWork_v (cfg : Config) (p : Ppu) (s d : Nat) : (renderWork cfg p s d).v = rasterV s d p.t p.v := by
  rw [renderWork, spriteWork_v, verticalWork_v, horizontalWork_v, t_of_stageFrame (horizontalWork_frame d _), lineWork_v,
    t_of_stageFrame (lineWork_frame s d _), tileWork_v, t_of_stageFrame (tileWork_frame cfg d _), clearWork_v,
    t_of_stageFrame (clearWork_frame s d p)]
  rfl

theorem dotWork_v (cfg : Config) (p : Ppu) (s d : Nat) :
    (dotWork cfg p s d).v = if (s ≤ 239 ∨ s = 261) ∧ RenderingOn cfg p then rasterV s d p.t p.v else p.v := by
  rw [dotWork_eq_works]
  split
  · rw [renderWork_v, beforeRender_eq]
  · rw [beforeRender_eq]

/-- Settles O56: each field of the dot's result, from the part of the dot that writes it. -/
theorem renderingFrame : Obligations.RenderingFrame := by
  intro cfg p s d q works pixel fetched evaluated loaded
  obtain ⟨hcells, hcount, hindex, hover⟩ := dotWork_secondary cfg p s d
  obtain ⟨hslots, hslotCount⟩ := dotWork_slots cfg p s d
  refine ⟨renderEnabled_iff cfg p, keeps_of_dotFrame (dotWork_frame cfg p s d), dotWork_output cfg p s d,
    dotWork_vblank cfg p s d, hover.trans ?_, fun hw => (dotWork_v cfg p s d).trans (if_pos hw),
    fun hw => (dotWork_v cfg p s d).trans (if_neg hw), dotWork_tiles cfg p s d, ?_, ?_⟩
  · by_cases h64 : works ∧ s ≤ 239 ∧ d = 64
    · rw [if_pos h64, if_neg (show ¬(works ∧ s ≤ 239 ∧ d = 256) by omega)]
      rfl
    · rw [if_neg h64]
      split_ifs <;> rfl
  · by_cases h64 : works ∧ s ≤ 239 ∧ d = 64
    · rw [if_pos h64] at hcells hcount hindex ⊢
      exact ⟨fun n hn => (congrArg (·.read n) hcells).trans (read_clearSecondaryOam p hn), hcount, hindex⟩
    · rw [if_neg h64] at hcells hcount hindex ⊢
      by_cases h256 : works ∧ s ≤ 239 ∧ d = 256
      · rw [if_pos h256] at hcells hcount hindex ⊢
        exact ⟨hcells, hcount, hindex⟩
      · rw [if_neg h256] at hcells hcount hindex ⊢
        exact ⟨hcells, hcount, hindex⟩
  · by_cases h320 : works ∧ d = 320
    · rw [if_pos h320] at hslots hslotCount ⊢
      refine ⟨fun hs => ?_, fun hs => ?_⟩
      · rw [if_pos hs] at hslots hslotCount
        exact ⟨hslots, hslotCount⟩
      · rw [if_neg (by omega)] at hslots hslotCount
        exact ⟨hslots, hslotCount⟩
    · rw [if_neg h320] at hslots hslotCount ⊢
      exact ⟨hslots, hslotCount⟩

/-! ### O54: the status events -/

theorem outputPixel_sprite0Hit_of_set (cfg : Config) (p : Ppu) (line x : Nat) (h : p.status.sprite0Hit = true) :
    (outputPixel cfg p line x).status.sprite0Hit = true := by
  obtain ⟨c, hit, heq⟩ := outputPixel_frame cfg p line x
  rw [heq, h]
  rfl

theorem evaluateSprites_spriteOverflow_of_set (p : Ppu) (line : Nat) (h : p.status.spriteOverflow = true) :
    (evaluateSprites p line).status.spriteOverflow = true := by
  simp only [evaluateSprites, h, Bool.true_or]

theorem dotWork_sprite0Hit_of_set (cfg : Config) (p : Ppu) (hevent : ¬(s = 261 ∧ d = 1)) (h : p.status.sprite0Hit = true) :
    (dotWork cfg p s d).status.sprite0Hit = true := by
  have hout := dotWork_output cfg p s d
  by_cases hpixel : s ≤ 239 ∧ 1 ≤ d ∧ d ≤ 256
  · rw [if_pos hpixel] at hout
    exact hout.2.trans (outputPixel_sprite0Hit_of_set cfg p s _ h)
  · rw [if_neg hpixel, if_neg hevent] at hout
    exact hout.2.trans h

theorem dotWork_spriteOverflow_of_set (cfg : Config) (p : Ppu) (hevent : ¬(s = 261 ∧ d = 1))
    (h : p.status.spriteOverflow = true) : (dotWork cfg p s d).status.spriteOverflow = true := by
  obtain ⟨-, -, -, hover⟩ := dotWork_secondary cfg p s d
  rw [hover, if_neg hevent]
  split_ifs
  · exact h
  · exact evaluateSprites_spriteOverflow_of_set p s h
  · exact h

theorem dotWork_status_241 (cfg : Config) (p : Ppu) : (dotWork cfg p 241 1).status = { p.status with vblank := true } := by
  rw [dotWork_eq_works, if_neg (by omega), statusWork_eq, if_pos (by decide), pixelWork_eq, if_neg (by decide)]

theorem dotWork_status_261 (cfg : Config) (p : Ppu) : (dotWork cfg p 261 1).status = ⟨false, false, false⟩ := by
  obtain ⟨-, hsprite0⟩ := dotWork_output cfg p 261 1
  obtain ⟨-, -, -, hover⟩ := dotWork_secondary cfg p 261 1
  have hvblank := dotWork_vblank cfg p 261 1
  generalize (dotWork cfg p 261 1).status = status at hvblank hsprite0 hover
  obtain ⟨vblank, sprite0Hit, spriteOverflow⟩ := status
  exact congrArg₂ (fun b f => f b) hvblank (congrArg₂ (fun b c v => PpuStatus.mk v b c) hsprite0 hover)

theorem raisesNmi_241 (hs : p.scanline.val = 241) (hd : p.dot.val = 1) : raisesNmi p = p.ctrl.getLsbD 7 := by
  rw [raisesNmi, decide_eq_true hs, decide_eq_true hd, Bool.true_and, Bool.true_and]

theorem raisesNmi_of_ne (h : ¬(p.scanline.val = 241 ∧ p.dot.val = 1)) : raisesNmi p = false := by
  rw [raisesNmi, ← Bool.decide_and, decide_eq_false h, Bool.false_and]

theorem ppuTick_status (s : State) :
    (ppuTick s).ppu.status = (dotWork s.cfg s.ppu s.ppu.scanline.val s.ppu.dot.val).status := rfl

theorem ppuTick_nmiGenerated (s : State) : (ppuTick s).bus.nmiGenerated = (s.bus.nmiGenerated || raisesNmi s.ppu) := rfl

/-- Settles O54: the two events at their dots, and at any other dot no event. -/
theorem vBlankAndNmi : Obligations.VBlankAndNmi := by
  intro s t
  rw [show t.ppu.status = _ from ppuTick_status s, show t.bus.nmiGenerated = _ from ppuTick_nmiGenerated s]
  refine ⟨fun hs hd => ⟨?_, ?_⟩, fun hs hd => ⟨?_, ?_⟩, fun h => ?_, fun h241 h261 => ⟨?_, ?_, ?_⟩⟩
  · rw [hs, hd, dotWork_status_241]
  · rw [raisesNmi_241 hs hd]
  · rw [hs, hd, dotWork_status_261]
  · rw [raisesNmi_of_ne (by omega), Bool.or_false]
  · rw [raisesNmi_of_ne h, Bool.or_false]
  · rw [dotWork_vblank, if_neg h241, if_neg h261]
  · exact dotWork_sprite0Hit_of_set s.cfg s.ppu h261
  · exact dotWork_spriteOverflow_of_set s.cfg s.ppu h261

/-! ### O55: the raster -/

theorem rasterIndex_lt (p : Ppu) : rasterIndex p < 89342 := by
  have := p.scanline.isLt
  have := p.dot.isLt
  rw [rasterIndex]
  omega

theorem rasterIndex_ppuAdvance (p : Ppu) : rasterIndex (ppuAdvance p) = (rasterIndex p + 1) % 89342 := by
  have hs := p.scanline.isLt
  have hd := p.dot.isLt
  have hdot : (p.dot + 1).val = (p.dot.val + 1) % 341 := Fin.val_add p.dot 1
  have hline : (p.scanline + 1).val = (p.scanline.val + 1) % 262 := Fin.val_add p.scanline 1
  have hadvance : rasterIndex (ppuAdvance p) =
      341 * (if p.dot.val = 340 then p.scanline + 1 else p.scanline).val + (p.dot + 1).val := rfl
  rw [hadvance, rasterIndex, hdot]
  split
  · rw [hline]
    omega
  · omega

theorem frameCount_ppuAdvance (p : Ppu) :
    (ppuAdvance p).frameCount = p.frameCount + if rasterIndex p = 89341 then 1 else 0 := by
  have hs := p.scanline.isLt
  have hd := p.dot.isLt
  have hwrap : (p.dot.val = 340 ∧ p.scanline.val = 261) ↔ rasterIndex p = 89341 := by
    rw [rasterIndex]
    omega
  have hadvance : (ppuAdvance p).frameCount =
      if p.dot.val = 340 ∧ p.scanline.val = 261 then p.frameCount + 1 else p.frameCount := rfl
  rw [hadvance, ite_congr (propext hwrap) (fun _ => rfl) fun _ => rfl]
  split <;> rfl

theorem ppuStep_raster (cfg : Config) (p : Ppu) :
    rasterIndex (ppuStep cfg p) = (rasterIndex p + 1) % 89342 ∧
      (ppuStep cfg p).frameCount = p.frameCount + if rasterIndex p = 89341 then 1 else 0 := by
  obtain ⟨-, -, -, -, -, -, -, -, -, -, hline, hdot, hcount⟩ :=
    keeps_of_dotFrame (dotWork_frame cfg p p.scanline.val p.dot.val)
  have hindex : rasterIndex (dotWork cfg p p.scanline.val p.dot.val) = rasterIndex p := by
    rw [rasterIndex, rasterIndex, hline, hdot]
  rw [ppuStep, rasterIndex_ppuAdvance, frameCount_ppuAdvance, hindex, hcount]
  exact ⟨rfl, rfl⟩

/-- After n steps: the position modulo the frame, and the frames passed. -/
theorem iterate_ppuStep_raster (cfg : Config) (p : Ppu) (n : Nat) :
    rasterIndex (Nat.iterate (ppuStep cfg) n p) = (rasterIndex p + n) % 89342 ∧
      (Nat.iterate (ppuStep cfg) n p).frameCount = p.frameCount + (rasterIndex p + n) / 89342 := by
  have hlt := rasterIndex_lt p
  induction n with
  | zero => exact ⟨by simp only [Function.iterate_zero, id]; omega, by simp only [Function.iterate_zero, id]; omega⟩
  | succ n ih =>
    obtain ⟨hindex, hcount⟩ := ih
    obtain ⟨h1, h2⟩ := ppuStep_raster cfg (Nat.iterate (ppuStep cfg) n p)
    rw [Function.iterate_succ_apply', h1, h2, hindex, hcount]
    refine ⟨by omega, ?_⟩
    split <;> omega

/-- The raster index determines the position. -/
theorem position_of_rasterIndex (h : rasterIndex q = rasterIndex p) : q.scanline = p.scanline ∧ q.dot = p.dot := by
  have := p.dot.isLt
  have := q.dot.isLt
  rw [rasterIndex, rasterIndex] at h
  exact ⟨Fin.ext (by omega), Fin.ext (by omega)⟩

/-- Settles O55: 89342 steps are one whole turn of the raster. -/
theorem frameTiming : Obligations.FrameTiming := by
  refine ⟨ppuStep_raster, fun cfg p => ?_⟩
  have hlt := rasterIndex_lt p
  obtain ⟨hindex, hcount⟩ := iterate_ppuStep_raster cfg p 89342
  obtain ⟨hline, hdot⟩ := position_of_rasterIndex (hindex.trans (show _ = rasterIndex p by omega))
  exact ⟨hline, hdot, hcount.trans (by omega)⟩

end Sys2Proof.Proofs
end

section
/-!
SUPPORT. The background and the output pixel (R363, R367, R368, R373, R374, R381 to R385): the addresses that rendering forms out
of fields, as numbers, and the pixel that the two layers make.
-/

namespace Sys2Proof.Proofs

open Sys2Proof.Machine Sys2Proof.Claims

variable {cfg : Config} {p : Ppu}

/-! ### The tile fetch -/

theorem tileAddress_eq (v : Loopy) : tileAddress v = BitVec.ofNat 14 (0x2000 + v.toNat % 4096) := by
  have h : tileAddress v = 2#2 ++ v.extractLsb' 0 12 := by
    apply BitVec.eq_of_getLsbD_eq
    intro k hk
    rw [tileAddress, BitVec.getLsbD_append]
    interval_cases k <;> simp
  rw [h, ← BitVec.toNat_inj, toNat_append_add, toNat_field, BitVec.toNat_ofNat, BitVec.toNat_ofNat]
  omega

theorem attributeAddress_eq (v : Loopy) :
    attributeAddress v =
      BitVec.ofNat 14 (0x23C0 + v.toNat / 1024 % 4 * 1024 + v.toNat / 32 % 32 / 4 * 8 + v.toNat % 32 / 4) := by
  have h : attributeAddress v = 2#2 ++ v.extractLsb' 10 2 ++ 15#4 ++ v.extractLsb' 7 3 ++ v.extractLsb' 2 3 := by
    apply BitVec.eq_of_getLsbD_eq
    intro k hk
    rw [attributeAddress, BitVec.getLsbD_append, BitVec.getLsbD_append, BitVec.getLsbD_append, BitVec.getLsbD_append]
    interval_cases k <;> simp
  have hy : v.toNat / 2 ^ 7 % 2 ^ 3 = v.toNat / 32 % 32 / 4 := by omega
  have hx : v.toNat / 2 ^ 2 % 2 ^ 3 = v.toNat % 32 / 4 := by omega
  have hn : v.toNat / 2 ^ 10 % 2 ^ 2 = v.toNat / 1024 % 4 := rfl
  have hylt : v.toNat / 32 % 32 < 32 := Nat.mod_lt _ (by decide)
  have hxlt : v.toNat % 32 < 32 := Nat.mod_lt _ (by decide)
  rw [h, ← BitVec.toNat_inj, toNat_append_add, toNat_append_add, toNat_append_add, toNat_append_add, toNat_field, toNat_field,
    toNat_field, hn, hy, hx, BitVec.toNat_ofNat, BitVec.toNat_ofNat, BitVec.toNat_ofNat]
  omega

theorem and_two (n : Nat) : n &&& 2 = n / 2 % 2 * 2 := by
  have h := Nat.and_two_pow n 1
  rwa [Nat.toNat_testBit] at h

/-- The shift that selects the two bits of a quarter (R368). -/
theorem quarterShift_eq (cx cy : Nat) : ((cy &&& 2) <<< 1) ||| (cx &&& 2) = 4 * (cy / 2 % 2) + 2 * (cx / 2 % 2) := by
  rw [and_two, and_two]
  obtain hy | hy := Nat.mod_two_eq_zero_or_one (cy / 2) <;> obtain hx | hx := Nat.mod_two_eq_zero_or_one (cx / 2) <;>
    rw [hx, hy] <;> rfl

theorem attributePalette_eq (attr : Byte) (v : Loopy) :
    attributePalette attr v =
      BitVec.ofNat 2 (attr.toNat / 2 ^ (4 * (v.toNat / 32 % 32 / 2 % 2) + 2 * (v.toNat % 32 / 2 % 2))) := by
  rw [attributePalette, quarterShift_eq, ← BitVec.toNat_inj, BitVec.toNat_setWidth, BitVec.toNat_ushiftRight,
    Nat.shiftRight_eq_div_pow, BitVec.toNat_ofNat]
  rfl

theorem ppuFetch_pattern {n : Nat} (hn : n < 0x2000) : ppuFetch cfg p (BitVec.ofNat 14 n) = cfg.chrRom.read n := by
  have h : (BitVec.ofNat 14 n).toNat = n := by
    rw [BitVec.toNat_ofNat]
    omega
  rw [ppuFetch_chrRom (by omega), h]

/-- A background tile's row, with its high plane, lies in the pattern tables. -/
theorem tileRow_lt (bit : Bool) (tile : Byte) (v : Loopy) :
    (if bit then 4096 else 0) + 16 * tile.toNat + v.toNat / 4096 + 8 < 0x2000 := by
  have := tile.isLt
  have := v.isLt
  split <;> omega

theorem fetchTile_eq (cfg : Config) (p : Ppu) :
    let cx := p.v.toNat % 32
    let cy := p.v.toNat / 32 % 32
    let tile := ppuFetch cfg p (BitVec.ofNat 14 (0x2000 + p.v.toNat % 4096))
    let attr := ppuFetch cfg p (BitVec.ofNat 14 (0x23C0 + p.v.toNat / 1024 % 4 * 1024 + cy / 4 * 8 + cx / 4))
    let row := (if p.ctrl.getLsbD 4 then 4096 else 0) + 16 * tile.toNat + p.v.toNat / 4096
    fetchTile cfg p =
      { p with bgA := p.bgB
               bgB := { patLo := cfg.chrRom.read row, patHi := cfg.chrRom.read (row + 8)
                        pal := BitVec.ofNat 2 (attr.toNat / 2 ^ (4 * (cy / 2 % 2) + 2 * (cx / 2 % 2))) } } := by
  intro cx cy tile attr row
  have hrow : row + 8 < 0x2000 := tileRow_lt _ tile p.v
  have heq : patternBank (p.ctrl.getLsbD 4) + tile.toNat * 16 + fineY p.v = row := by
    rw [Nat.mul_comm]
    rfl
  simp only [fetchTile, tileAddress_eq, attributeAddress_eq, attributePalette_eq]
  rw [show patternBank _ + _ + _ = row from heq, ppuFetch_pattern (show row < 0x2000 by omega), ppuFetch_pattern hrow]

/-! ### Layers and planes -/

theorem planePixel_toNat (hi lo : Byte) (k : Nat) :
    (planePixel hi lo k).toNat = 2 * (hi.getLsbD k).toNat + (lo.getLsbD k).toNat := by
  have h := toNat_append_add (BitVec.ofBool (hi.getLsbD k)) (BitVec.ofBool (lo.getLsbD k))
  rw [BitVec.toNat_ofBool, BitVec.toNat_ofBool] at h
  exact h.trans (by omega)

theorem showBackground_hardware (h : cfg.maskGating = .hardware) (x : Nat) :
    showBackground cfg p x = true ↔ p.mask.getLsbD 3 = true ∧ (8 ≤ x ∨ p.mask.getLsbD 1 = true) := by
  simp only [showBackground, h, Bool.and_eq_true, Bool.or_eq_true, decide_eq_true_eq]

theorem showSprites_hardware (h : cfg.maskGating = .hardware) (x : Nat) :
    showSprites cfg p x = true ↔ p.mask.getLsbD 4 = true ∧ (8 ≤ x ∨ p.mask.getLsbD 2 = true) := by
  simp only [showSprites, h, Bool.and_eq_true, Bool.or_eq_true, decide_eq_true_eq]

/-- Settles O57: the fetch, the pixel of the two latches and the enables. -/
theorem background : Obligations.Background := by
  refine ⟨fun cfg p => ⟨tileRow_lt _ _ _, fetchTile_eq cfg p⟩, fun cfg p x => ⟨rfl, fun h => ?_, fun h => ?_⟩,
    fun cfg p x => ⟨fun h => ⟨showBackground_hardware h x, showSprites_hardware h x⟩, fun h => ⟨?_, ?_⟩⟩⟩
  · rw [backgroundPixel, if_pos h]
    exact planePixel_toNat _ _ _
  · rw [backgroundPixel, h]
    rfl
  · simp only [showBackground, h]
  · simp only [showSprites, h]

/-! ### O60: the output pixel -/

theorem slotPixel_toNat (x : Nat) (slot : Slot) : (slotPixel x slot).toNat = slotValue x slot := by
  have hcolumns : (slot.x.toNat ≤ x ∧ x - slot.x.toNat ≤ 7) ↔ (slot.x.toNat ≤ x ∧ x ≤ slot.x.toNat + 7) := by omega
  rw [slotPixel, slotValue, ite_congr (propext hcolumns) (fun _ => rfl) fun _ => rfl]
  split
  · exact planePixel_toNat _ _ _
  · rfl

theorem opaqueSlots_eq (cfg : Config) (p : Ppu) (x : Nat) :
    opaqueSlots cfg p x =
      if showSprites cfg p x then (p.slots.toList.take p.slotCount).filter (fun slot => slotValue x slot ≠ 0) else [] := by
  have hopaque : ∀ slot, (slotPixel x slot != 0) = decide (slotValue x slot ≠ 0) := fun slot => by
    rw [← slotPixel_toNat, bne, Bool.beq_eq_decide_eq, ← decide_not]
    exact decide_eq_decide.2 (not_congr BitVec.toNat_inj.symm)
  simp only [opaqueSlots, hopaque]

theorem paletteAddress_eq (base : BitVec 14) (palette value : BitVec 2) :
    paletteAddress base palette value = BitVec.ofNat 14 (base.toNat + 4 * palette.toNat + value.toNat) := by
  rw [paletteAddress, ← BitVec.toNat_inj]
  simp only [BitVec.toNat_add, BitVec.toNat_mul, BitVec.toNat_setWidth, BitVec.toNat_ofNat, BitVec.reduceToNat]
  omega

/-- The composed palette address as a number (R382). -/
def composedNat (seen : List Slot) (bg : BitVec 2) (palette x : Nat) : Nat :=
  match seen with
  | [] => if bg ≠ 0 then 0x3F00 + 4 * palette + bg.toNat else 0x3F00
  | slot :: _ =>
    if bg = 0 ∨ slot.attr.getLsbD 5 = false then 0x3F10 + 4 * (slot.attr.toNat % 4) + slotValue x slot
    else 0x3F00 + 4 * palette + bg.toNat

/-- The background's part of the composition. -/
theorem backgroundAddress_eq (bg palette : BitVec 2) :
    (if bg != 0 then paletteAddress 0x3F00 palette bg else 0x3F00) =
      BitVec.ofNat 14 (if bg ≠ 0 then 0x3F00 + 4 * palette.toNat + bg.toNat else 0x3F00) := by
  by_cases hbg : bg = 0
  · rw [if_neg (by simp [hbg]), if_neg (not_not.2 hbg)]
    rfl
  · rw [if_pos (bne_iff_ne.2 hbg), if_pos hbg, paletteAddress_eq]
    rfl

theorem composedAddress_eq (cfg : Config) (p : Ppu) (x : Nat) :
    composedAddress cfg p x =
      BitVec.ofNat 14
        (composedNat (opaqueSlots cfg p x) (backgroundPixel cfg p x) (backgroundTile p x).pal.toNat x) := by
  simp only [composedAddress, backgroundAddress_eq]
  generalize backgroundPixel cfg p x = bg
  cases opaqueSlots cfg p x with
  | nil => rfl
  | cons slot rest =>
    have hfront : (bg == 0 || !slot.attr.getLsbD 5) = true ↔ bg = 0 ∨ slot.attr.getLsbD 5 = false := by
      rw [Bool.or_eq_true, beq_iff_eq, Bool.not_eq_true']
    simp only [composedNat, hfront]
    split
    · rw [paletteAddress_eq, BitVec.toNat_setWidth, slotPixel_toNat]
      rfl
    · next hbehind => rw [if_pos fun hbg => hbehind (.inl hbg)]

theorem and_greyscale_toNat (c : BitVec 6) : (c &&& 0x30).toNat = c.toNat / 16 * 16 := by
  have h : c &&& 0x30 = c.extractLsb' 4 2 ++ 0#4 := by
    apply BitVec.eq_of_getLsbD_eq
    intro k hk
    rw [BitVec.getLsbD_append]
    interval_cases k <;> simp
  have hc := c.isLt
  rw [h, toNat_append_add, toNat_field, BitVec.toNat_ofNat]
  omega

theorem outputColor_toNat (cfg : Config) (p : Ppu) (a : BitVec 14) :
    (outputColor cfg p a).toNat =
      let color := (ppuFetch cfg p a).toNat % 64
      if cfg.maskGating = .hardware ∧ p.mask.getLsbD 0 = true then color / 16 * 16 else color := by
  simp only [outputColor, Bool.and_eq_true, decide_eq_true_eq]
  split
  · rw [and_greyscale_toNat, BitVec.toNat_setWidth]
  · rw [BitVec.toNat_setWidth]

theorem sprite0HitAt_iff (cfg : Config) (p : Ppu) (x : Nat) :
    sprite0HitAt cfg p x = true ↔
      backgroundPixel cfg p x ≠ 0 ∧ ∃ slot ∈ opaqueSlots cfg p x, slot.isSprite0 = true := by
  rw [sprite0HitAt, Bool.and_eq_true, bne_iff_ne, List.any_eq_true]

/-- With rendering on or off: one cell, of the shown address's color, and the sprite-0 test when it is on. -/
theorem outputPixel_eq (cfg : Config) (p : Ppu) (line x : Nat) :
    outputPixel cfg p line x =
      { p with
        frameBuffer := p.frameBuffer.write (256 * line + x)
          (outputColor cfg p (if RenderingOn cfg p then composedAddress cfg p x else 0x3F00))
        status := { p.status with
          sprite0Hit := p.status.sprite0Hit || (decide (RenderingOn cfg p) && sprite0HitAt cfg p x) } } := by
  by_cases hon : RenderingOn cfg p
  · rw [outputPixel, if_pos ((renderEnabled_iff cfg p).2 hon), if_pos hon, decide_eq_true hon, Bool.true_and]
  · rw [outputPixel, if_neg (mt (renderEnabled_iff cfg p).1 hon), if_neg hon, decide_eq_false hon, Bool.false_and, Bool.or_false]

/-- Settles O60: the cell and the flag of `outputPixel_eq`, with the composed address as a number. -/
theorem pixelOutput : Obligations.PixelOutput := by
  intro cfg p line x q bg bgp seen address shown color
  have hq := outputPixel_eq cfg p line x
  have hshown : (if RenderingOn cfg p then composedAddress cfg p x else 0x3F00) = BitVec.ofNat 14 shown := by
    rw [composedAddress_eq, opaqueSlots_eq, apply_ite (BitVec.ofNat 14)]
    rfl
  rw [hshown] at hq
  refine ⟨slotPixel_toNat x, ?_, fun n hn => ?_, ?_, ?_⟩
  · rw [show q = _ from hq, Memory.read_write_self]
    exact outputColor_toNat cfg p _
  · rw [show q = _ from hq, Memory.read_write_ne _ _ hn]
  · rw [show q = _ from hq, Bool.or_eq_true, Bool.and_eq_true, decide_eq_true_eq, sprite0HitAt_iff, opaqueSlots_eq]
  · rw [show q = _ from hq]

end Sys2Proof.Proofs
end

section
/-!
SUPPORT. Sprite evaluation and the slot load (R376 to R379): each is a fold over places, one place at a time, and the lemma about
one place says which cells it fills.
-/

namespace Sys2Proof.Proofs

open Sys2Proof.Machine Sys2Proof.Claims

variable {cfg : Config} {p : Ppu} {line : Nat}

/-! ### O58: sprite evaluation -/

theorem inRange_iff (p : Ppu) (line i : Nat) : inRange p line i = true ↔ OnLine p line i := by
  rw [inRange, Bool.and_eq_true, decide_eq_true_eq, decide_eq_true_eq, OnLine, spriteHeight]
  omega

/-- A rising list of the sprites in range is the one that evaluation makes. -/
theorem spritesInRange_eq {found : List Nat} (hrising : found.Pairwise (· < ·))
    (hmem : ∀ i, i ∈ found ↔ i < 64 ∧ OnLine p line i) : spritesInRange p line = found := by
  refine List.Pairwise.eq_of_mem_iff (List.pairwise_lt_range.filter _) hrising fun i => ?_
  rw [hmem, spritesInRange, List.mem_filter, List.mem_range, inRange_iff]

theorem copySprite_read_same (p : Ppu) (i n : Nat) {k : Nat} (hk : k < 4) :
    (copySprite p (i, n)).secOam.read (4 * n + k) = p.oam.read (4 * i + k) := by
  rw [copySprite]
  interval_cases k <;> simp [Memory.read_write]

theorem copySprite_read_ne (p : Ppu) (i n : Nat) {m : Nat} (hm : m < 4 * n ∨ 4 * n + 4 ≤ m) :
    (copySprite p (i, n)).secOam.read m = p.secOam.read m := by
  rw [copySprite, Memory.read_write_ne _ _ (by omega), Memory.read_write_ne _ _ (by omega),
    Memory.read_write_ne _ _ (by omega), Memory.read_write_ne _ _ (by omega)]

theorem getD_set {α : Type} (l : List α) (n m : Nat) (x y : α) (hn : n < l.length) :
    (l.set n x).getD m y = if n = m then x else l.getD m y := by
  rw [List.getD_eq_getElem?_getD, List.getD_eq_getElem?_getD, List.getElem?_set, if_pos hn]
  split <;> rfl

theorem copySprite_secIndex (p : Ppu) (i : Nat) {n : Nat} (hn : n < 8) (m : Nat) :
    (copySprite p (i, n)).secIndex.toList.getD m 0 = if n = m then BitVec.ofNat 6 i else p.secIndex.toList.getD m 0 := by
  rw [copySprite, Vector.toList_setIfInBounds, getD_set _ _ _ _ _ (by simpa using hn)]

theorem foldl_copySprite_oam (places : List (Nat × Nat)) (p : Ppu) : (places.foldl copySprite p).oam = p.oam := by
  rw [foldl_copySprite_frame]

/-- The fold fills the places from `base` on, one per sprite, and no other. -/
theorem foldl_copySprite_cells (found : List Nat) (base : Nat) (p : Ppu) :
    let q := (found.zipIdx base).foldl copySprite p
    (∀ n, n < found.length → ∀ k, k < 4 → q.secOam.read (4 * (base + n) + k) = p.oam.read (4 * found.getD n 0 + k)) ∧
      ∀ m, m < 4 * base ∨ 4 * (base + found.length) ≤ m → q.secOam.read m = p.secOam.read m := by
  induction found generalizing base p with
  | nil => exact ⟨fun n hn => absurd hn (Nat.not_lt_zero n), fun m _ => rfl⟩
  | cons i rest ih =>
    obtain ⟨hfilled, hkept⟩ := ih (base + 1) (copySprite p (i, base))
    simp only [List.zipIdx_cons, List.foldl_cons, List.length_cons]
    refine ⟨fun n hn k hk => ?_, fun m hm => ?_⟩
    · cases n with
      | zero =>
        rw [hkept _ (by omega)]
        exact copySprite_read_same p i base hk
      | succ n =>
        rw [show base + (n + 1) = base + 1 + n by omega]
        exact hfilled n (by omega) k hk
    · rw [hkept m (by omega), copySprite_read_ne p i base (by omega)]

theorem foldl_copySprite_secIndex (found : List Nat) (base : Nat) (p : Ppu) (hlen : base + found.length ≤ 8) :
    let q := (found.zipIdx base).foldl copySprite p
    (∀ n, n < found.length → q.secIndex.toList.getD (base + n) 0 = BitVec.ofNat 6 (found.getD n 0)) ∧
      ∀ m, m < base ∨ base + found.length ≤ m → q.secIndex.toList.getD m 0 = p.secIndex.toList.getD m 0 := by
  induction found generalizing base p with
  | nil => exact ⟨fun n hn => absurd hn (Nat.not_lt_zero n), fun m _ => rfl⟩
  | cons i rest ih =>
    rw [List.length_cons] at hlen
    obtain ⟨hfilled, hkept⟩ := ih (base + 1) (copySprite p (i, base)) (by omega)
    simp only [List.zipIdx_cons, List.foldl_cons, List.length_cons]
    refine ⟨fun n hn => ?_, fun m hm => ?_⟩
    · cases n with
      | zero => rw [hkept _ (by omega), copySprite_secIndex p i (by omega), if_pos (by omega)]; rfl
      | succ n =>
        rw [show base + (n + 1) = base + 1 + n by omega]
        exact hfilled n (by omega)
    · rw [hkept m (by omega), copySprite_secIndex p i (by omega), if_neg (by omega)]

theorem getD_take {α : Type} (l : List α) {n m : Nat} (h : n < m) (x : α) : (l.take m).getD n x = l.getD n x := by
  rw [List.getD_eq_getElem?_getD, List.getD_eq_getElem?_getD, List.getElem?_take_of_lt h]

/-- Settles O58: what evaluation finds is `found`, and the fold copies its first eight. -/
theorem spriteEvaluation : Obligations.SpriteEvaluation := by
  intro p line found hrising hmem q
  have hfound := spritesInRange_eq hrising hmem
  have hlen : (found.take 8).length = min 8 found.length := List.length_take
  obtain ⟨hfilled, hkept⟩ := foldl_copySprite_cells (found.take 8) 0 p
  obtain ⟨hindex, hindexKept⟩ := foldl_copySprite_secIndex (found.take 8) 0 p (by omega)
  have hcount : q.secCount = (found.take 8).length := congrArg (fun l : List Nat => (l.take 8).length) hfound
  have hcells : q.secOam = (((found.take 8).zipIdx).foldl copySprite p).secOam :=
    congrArg (fun l : List Nat => (((l.take 8).zipIdx).foldl copySprite p).secOam) hfound
  have hindices : q.secIndex = (((found.take 8).zipIdx).foldl copySprite p).secIndex :=
    congrArg (fun l : List Nat => (((l.take 8).zipIdx).foldl copySprite p).secIndex) hfound
  have hover : q.status.spriteOverflow = (p.status.spriteOverflow || decide (8 < found.length)) :=
    congrArg (fun l : List Nat => p.status.spriteOverflow || decide (8 < l.length)) hfound
  rw [hcount, hcells, hindices]
  refine ⟨hlen, fun n hn => ⟨fun k hk => ?_, ?_⟩, fun n hn => hkept n (by omega), fun n hn => hindexKept n (by omega), hover, ?_⟩
  · have h := hfilled n hn k hk
    rwa [Nat.zero_add, getD_take _ (by omega)] at h
  · have h := hindex n hn
    rwa [Nat.zero_add, getD_take _ (by omega)] at h
  · rw [← hcount, ← hcells, ← hindices]
    exact evaluateSprites_frame p line

/-! ### O59: the slot load -/

theorem reverseByte_flipped (b : Byte) : Flipped true b (reverseByte b) := by
  intro k hk
  rw [reverseByte, BitVec.getLsbD_reverse, BitVec.getMsbD_eq_getLsbD, decide_eq_true hk, Bool.true_and, if_pos rfl]

theorem flipped_ite (flip : Bool) (b : Byte) : Flipped flip b (if flip then reverseByte b else b) := by
  cases flip with
  | false => exact fun k _ => rfl
  | true => exact reverseByte_flipped b

theorem tileTop_toNat (tile : Byte) : (tile &&& 0xFE).toNat = tile.toNat / 2 * 2 := by
  have h : tile &&& 0xFE = tile.extractLsb' 1 7 ++ 0#1 := by
    apply BitVec.eq_of_getLsbD_eq
    intro k hk
    rw [BitVec.getLsbD_append]
    interval_cases k <;> simp
  have := tile.isLt
  rw [h, toNat_append_add, toNat_field, BitVec.toNat_ofNat]
  omega

theorem patternBank_tile (tile : Byte) : patternBank (tile.getLsbD 0) = tile.toNat % 2 * 4096 := by
  rw [← BitVec.testBit_toNat, Nat.testBit_zero]
  obtain h | h := Nat.mod_two_eq_zero_or_one tile.toNat <;> rw [h] <;> rfl

/-- The row within a sprite, counted from the other end when it is flipped (R379). -/
def rowWithin (flip : Bool) (h line y : Nat) : Nat := if flip then h - 1 - (line - y) else line - y

theorem rowWithin_lt (flip : Bool) {h line y : Nat} (hlo : y ≤ line) (hhi : line < y + h) : rowWithin flip h line y < h := by
  rw [rowWithin]
  split <;> omega

theorem rowWithin_cast (flip : Bool) {h line y : Nat} (hlo : y ≤ line) (hhi : line < y + h) :
    (if flip then (h : Int) - 1 - ((line : Int) - (y : Int)) else (line : Int) - (y : Int)) = (rowWithin flip h line y : Int) := by
  rw [rowWithin]
  split <;> omega

theorem spriteRow_eq (p : Ppu) (line : Nat) (y tile attr : Byte) :
    spriteRow p line y tile attr =
      if p.ctrl.getLsbD 5 then
        tile.toNat % 2 * 4096 + (tile.toNat / 2 * 2 + rowWithin (attr.getLsbD 7) (spriteHeight p) line y.toNat / 8) * 16 +
          rowWithin (attr.getLsbD 7) (spriteHeight p) line y.toNat % 8
      else patternBank (p.ctrl.getLsbD 3) + tile.toNat * 16 + rowWithin (attr.getLsbD 7) (spriteHeight p) line y.toNat := rfl

/-- In range, the integer address is the statement's (R378, R379). -/
theorem spritePatternAddress_eq (p : Ppu) {line : Nat} {y : Byte} (tile attr : Byte) (hlo : y.toNat ≤ line)
    (hhi : line < y.toNat + spriteHeight p) :
    spritePatternAddress p line y tile attr = (spriteRow p line y tile attr : Int) := by
  have hlt := rowWithin_lt (attr.getLsbD 7) hlo hhi
  simp only [spritePatternAddress, rowWithin_cast _ hlo hhi, tileTop_toNat, patternBank_tile, spriteRow_eq]
  generalize rowWithin (attr.getLsbD 7) (spriteHeight p) line y.toNat = row at hlt ⊢
  rw [spriteHeight] at hlt
  by_cases htall : p.ctrl.getLsbD 5 = true
  · rw [if_pos htall] at hlt ⊢
    rw [if_pos htall]
    split <;> omega
  · rw [if_neg htall, if_neg htall]
    rfl

/-- A sprite's row, with its high plane, lies in the pattern tables. -/
theorem spriteRow_lt (p : Ppu) {line : Nat} {y : Byte} (tile attr : Byte) (hlo : y.toNat ≤ line)
    (hhi : line < y.toNat + spriteHeight p) : spriteRow p line y tile attr + 8 < 0x2000 := by
  have htile := tile.isLt
  have hlt := rowWithin_lt (attr.getLsbD 7) hlo hhi
  rw [spriteRow_eq]
  generalize rowWithin (attr.getLsbD 7) (spriteHeight p) line y.toNat = row at hlt ⊢
  rw [spriteHeight] at hlt
  by_cases htall : p.ctrl.getLsbD 5 = true
  · rw [if_pos htall] at hlt ⊢
    omega
  · rw [if_neg htall] at hlt ⊢
    rw [patternBank]
    split <;> omega

theorem patternFetch_nat (cfg : Config) (p : Ppu) {n : Nat} (hn : n < 0x2000) :
    patternFetch cfg p (n : Int) = (cfg.chrRom.read n, p) := by
  rw [patternFetch, if_pos (Int.natCast_nonneg n), BitVec.ofInt_natCast, ppuFetch_pattern hn]

/-- What the slot load puts into slot k (R379). -/
def loadedSlot (cfg : Config) (p : Ppu) (line k : Nat) : Slot :=
  let attr := p.secOam.read (4 * k + 2)
  let at0 := spriteRow p line (p.secOam.read (4 * k)) (p.secOam.read (4 * k + 1)) attr
  let flip : Byte → Byte := fun b => if attr.getLsbD 6 then reverseByte b else b
  { x := p.secOam.read (4 * k + 3)
    attr := attr
    patLo := flip (cfg.chrRom.read at0)
    patHi := flip (cfg.chrRom.read (at0 + 8))
    isSprite0 := p.secIndex.toList.getD k 0 == 0 }

theorem loadSlot_eq {k : Nat} (hlo : (p.secOam.read (4 * k)).toNat ≤ line)
    (hhi : line < (p.secOam.read (4 * k)).toNat + spriteHeight p) :
    loadSlot cfg line p k = { p with slots := p.slots.setIfInBounds k (loadedSlot cfg p line k) } := by
  have hlt := spriteRow_lt p (p.secOam.read (4 * k + 1)) (p.secOam.read (4 * k + 2)) hlo hhi
  have hplane : ∀ n : Nat, (n : Int) + 8 = ((n + 8 : Nat) : Int) := fun n => by push_cast; rfl
  simp only [loadSlot, spritePatternAddress_eq p _ _ hlo hhi, hplane]
  rw [patternFetch_nat cfg p (by omega), patternFetch_nat cfg p hlt]
  rfl

theorem getD_setIfInBounds (slots : Vector Slot 8) {k : Nat} (hk : k < 8) (m : Nat) (slot default : Slot) :
    (slots.setIfInBounds k slot).toList.getD m default = if k = m then slot else slots.toList.getD m default := by
  rw [Vector.toList_setIfInBounds, getD_set _ _ _ _ _ (by simpa using hk)]

/-- Every sprite of secondary OAM is in range on the line. -/
def SlotsOnLine (p : Ppu) (line : Nat) : Prop :=
  ∀ k, k < p.secCount → (p.secOam.read (4 * k)).toNat ≤ line ∧
    line < (p.secOam.read (4 * k)).toNat + spriteHeight p

/-- The fold fills the slots below n, and no other. -/
theorem foldl_loadSlot_slots (cfg : Config) (hcount : p.secCount ≤ 8) (hline : SlotsOnLine p line) {n : Nat}
    (hn : n ≤ p.secCount) (default : Slot) :
    ∃ slots, (List.range n).foldl (loadSlot cfg line) p = { p with slots := slots } ∧
      ∀ m, slots.toList.getD m default = if m < n then loadedSlot cfg p line m else p.slots.toList.getD m default := by
  induction n with
  | zero => exact ⟨p.slots, rfl, fun m => rfl⟩
  | succ n ih =>
    obtain ⟨slots, heq, hslots⟩ := ih (by omega)
    obtain ⟨hlo, hhi⟩ := hline n (by omega)
    refine ⟨slots.setIfInBounds n (loadedSlot cfg p line n), ?_, fun m => ?_⟩
    · rw [List.range_succ, List.foldl_append, heq, List.foldl_cons, List.foldl_nil]
      exact loadSlot_eq hlo hhi
    · rw [getD_setIfInBounds _ (by omega), hslots m]
      by_cases hm : n = m
      · rw [if_pos hm, if_pos (by omega), hm]
      · rw [if_neg hm]
        exact if_congr (by omega) rfl rfl

/-- Settles O59: the fold over the sprites of secondary OAM fills slot k with `loadedSlot`. -/
theorem spriteSlots : Obligations.SpriteSlots := by
  intro cfg p line hcount hline q
  obtain ⟨slots, heq, hslots⟩ := foldl_loadSlot_slots cfg hcount hline (Nat.le_refl _) ⟨0, 0, 0, 0, false⟩
  have hq : q = { p with slots := slots, slotCount := p.secCount } :=
    congrArg (fun r : Ppu => { r with slotCount := p.secCount }) heq
  rw [hq]
  refine ⟨rfl, fun k hk => (hslots k).trans (if_neg (by omega)), fun k hk => ?_⟩
  simp only [(hslots k).trans (if_pos hk)]
  exact ⟨rfl, rfl, rfl, flipped_ite _ _, flipped_ite _ _⟩

end Sys2Proof.Proofs
end

section
/-!
SUPPORT. The tick, the stopped machine and the reset state (R420, R428, R440 to R442).
-/

namespace Sys2Proof.Proofs

open Sys2Proof.Machine Sys2Proof.Claims

variable {s : State}

/-- Settles O6: the tick of a running machine, and what its PPU part leaves alone. -/
protected theorem systemTick : Obligations.SystemTick := by
  intro s hrun
  have hdiv : s.bus.clockDiv = 2 ↔ s.bus.clockDiv.val = 2 := Fin.ext_iff
  have htick : step s = if s.bus.clockDiv = 2 then cpuStep (ppuTick s) else .next (ppuTick s) := by
    rw [step, systemTick, hrun]
  refine ⟨fun h => htick.trans (if_neg (mt hdiv.1 h)), fun h => htick.trans (if_pos (hdiv.2 h)), s.bus.clockDiv + 1, rfl, rfl, rfl,
    rfl, rfl, Fin.val_add s.bus.clockDiv 1⟩

/-! ### O7: a stopped machine -/

theorem cpuStep_of_stopped (h : s.cpu.runStatus ≠ .running) : cpuStep s = .next s := by
  rw [cpuStep]
  split
  · next hrun => exact absurd hrun h
  · rfl
  · rfl

theorem runInstruction_of_stopped (h : s.cpu.runStatus ≠ .running) : runInstruction s = .next s := by
  rw [runInstruction, cpuStep_of_stopped h]
  exact drainIdle_stopped _ h

/-- Settles O7: a halted machine and a faulted one. -/
theorem stoppedMachine : Obligations.StoppedMachine := by
  refine ⟨fun s hhalted => ?_, fun s f hfaulted => ?_⟩
  · have h : s.cpu.runStatus ≠ .running := by rw [hhalted]; exact RunStatus.noConfusion
    exact ⟨by rw [step, systemTick, hhalted], cpuStep_of_stopped h, runInstruction_of_stopped h⟩
  · have h : s.cpu.runStatus ≠ .running := by rw [hfaulted]; exact RunStatus.noConfusion
    exact ⟨by rw [step, systemTick, hfaulted], cpuStep_of_stopped h, runInstruction_of_stopped h⟩

/-! ### O12: reset -/

/-- Settles O12: the fields of the power-on state; PC is the reset vector's word. -/
theorem resetValues : Obligations.ResetValues := by
  intro cfg s
  refine ⟨rfl, rfl, ⟨rfl, rfl, rfl, rfl, rfl, vectorAt_eq_romWord cfg (by decide), rfl, rfl, rfl⟩, fun n => ⟨rfl, rfl, rfl⟩,
    ⟨rfl, rfl, rfl, rfl, rfl, rfl⟩, ⟨rfl, rfl, rfl, rfl, rfl⟩, fun n => ⟨rfl, rfl, rfl, rfl, rfl⟩, ⟨rfl, rfl, ?_, ?_, rfl, rfl⟩,
    ⟨rfl, rfl, rfl, rfl, rfl, rfl, rfl⟩, rfl⟩
  · exact fun k hk => (List.mem_replicate.1 hk).2
  · exact fun slot hslot => (List.mem_replicate.1 hslot).2

end Sys2Proof.Proofs
end
